-- ==== Sys2Proof/Word.lean ====
section
/-! DEFINITION. The word types of EMS-TF (00_scope.md R7, R8, R10). -/

namespace Sys2Proof

/-- A byte has 8 bits (R7); bit 0 is the least significant (R8). -/
abbrev Byte := BitVec 8

/-- A 16-bit pattern: a slot descriptor (R80) or a 16-bit field (R52). -/
abbrev Half := BitVec 16

/-- A telegram: "an ordered sequence of bytes collected between two framing breaks" (R10). -/
abbrev Telegram := List Byte

/-- The marker byte `0xFF` (R7, R14). -/
abbrev markerByte : Byte := 0xFF

/-- The zero byte `0x00` (R7). -/
abbrev zeroByte : Byte := 0x00

end Sys2Proof
end

