-- ==== Sys2Proof/Syntax.lean ====
section
/-! DEFINITION. The types of R10 and R11, and the operations: one constructor of `Instr` per row of
spec/opcode_table.json. -/

namespace Sys2Proof

/-- The framer state register's values (10_state.md R21); the fourth 2-bit code has no name. -/
inductive FState where
  | normal
  | markSeen
  | markZero
  deriving DecidableEq, Repr

/-- The six slot kinds of a field layout (R10, R79); the counts are natural numbers as in R10. -/
inductive Slot where
  | u8
  | s8
  | u16
  | s16
  | str (n : Nat)
  | skip (n : Nat)
  deriving DecidableEq, Repr

/-- The width of a slot in bytes (R190). -/
def Slot.width : Slot → Nat
  | .u8 | .s8 => 1
  | .u16 | .s16 => 2
  | .str n | .skip n => n

/-- "an ordered list of typed slots" (R79). -/
abbrev Layout := List Slot

/-- `width(layout)`, the sum over its slots, 0 for the empty layout (R190). -/
def layoutWidth : Layout → Nat
  | [] => 0
  | s :: rest => s.width + layoutWidth rest

/-- A raw field value (R10). A numeric kind holds its bit pattern: the kind says how the pattern is read,
`toNat` for `u8` and `u16`, two's complement `toInt` for `s8` and `s16` (DEDUCED, notes/assumptions/20.md). -/
inductive RawVal where
  | u8 (v : Byte)
  | s8 (v : Byte)
  | u16 (v : Half)
  | s16 (v : Half)
  | str (bs : List Byte)
  deriving DecidableEq, Repr

/-- The header record handed out in events (R10) and the fields of the 32-bit header pattern (R74). -/
structure Header where
  src : Byte
  rq : BitVec 1
  dst : BitVec 7
  typ : Byte
  ofs : Byte
  deriving DecidableEq, Repr

/-- The closed list of diagnostic kinds (60_exceptions.md R230). -/
inductive DiagKind where
  | malformedMarker
  | tooShort
  | badChecksum
  | unknownType
  | lengthMismatch
  | layoutMismatch
  | parityGlitch
  | requestSkipped
  deriving DecidableEq, Repr

/-- The severity words of R230. -/
inductive Severity where
  | error
  | warning
  | info
  deriving DecidableEq, Repr

/-- The block's output events (R11); `info` is a list of natural numbers (R230). -/
inductive Event where
  | telegram (t : Telegram)
  | diag (kind : DiagKind) (info : List Nat)
  | raw (k : Nat) (hdr : Header) (fields : List RawVal) (lenOk : Bool)
  deriving DecidableEq, Repr

/-- The seven outcomes of `DP.RUN` (42_decoder_pipeline.md R162). -/
inductive DpOutcome where
  | poll
  | tooShort
  | request
  | badChecksum
  | unknownType
  | layoutMismatch
  | decoded
  deriving DecidableEq, Repr

/-- What `CK.CHECK` returns (R133). -/
inductive Verdict where
  | valid
  | invalid
  deriving DecidableEq, Repr

/-- What `PX.SENT` returns (R213). -/
inductive SentResult where
  | absent
  | present (v : RawVal)
  deriving DecidableEq, Repr

/-- The operations, one constructor per row of spec/opcode_table.json. An operand that the spec gives an operation and
that is no register of 10_state.md is an argument; the telegram operand `t` of `CK.CHECK`, `DP.*` and `HD.PARSE` is the
register `TG` (R24). -/
inductive Instr where
  -- format FRKEY (R72)
  | frNMark
  | frNData (b : Byte)
  | frSZero
  | frSLit
  | frSBad (b : Byte)
  | frZBreak
  | frZPerr (b : Byte)
  -- format SLOT16 (R80)
  | upU8
  | upS8
  | upU16
  | upS16
  | upStr (n : Nat)
  | upSkip (n : Nat)
  -- format OPID (R85)
  | frStep (b : Byte)
  | ckInit
  | ckUpdate (b : Byte)
  | ckCompute (bs : List Byte)
  | ckCheck
  | dpRun
  | dpPoll
  | dpShort
  | hdParse
  | dpReq
  | dpCksum
  | catLookup
  | dpLen
  | dpUnpack
  | dpHandoff
  | upUnpack (layout : Layout) (p : List Byte)
  | pxBit (v : RawVal) (mask : Nat)
  | pxWide32 (high low : RawVal)
  | pxBitmap (bs : List Byte)
  | pxSent (v : RawVal) (sentinel : Int)
  | pxScale (v num den : Int)
  | reset
  -- format HDR32 (R74)
  | hdHeader (h : Header)
  deriving DecidableEq, Repr

/-- The typed operands that travel beside an operation identifier, which has no operand bits of its own (R84, R85).
Every field has an in-domain default. DESIGN CHOICE, notes/assumptions/4.md. -/
structure Args where
  b : Byte := 0
  bs : List Byte := []
  layout : Layout := []
  v : RawVal := .u16 0
  w : RawVal := .u16 0
  mask : Nat := 0
  sentinel : Int := 0
  x : Int := 0
  num : Int := 1
  den : Int := 1
  deriving DecidableEq, Repr

/-- One operation asked for through the operation port: its word as bytes, most significant first, and its typed operands.
DESIGN CHOICE, notes/assumptions/3.md. -/
structure Call where
  word : List Byte
  args : Args
  deriving DecidableEq, Repr

end Sys2Proof
end

