-- ==== Sys2Proof/Config.lean ====
section
/-! DEFINITION. The implementation parameters of R6: the checksum table, the catalog, the buffer capacity and the two
presence-bitmap parameters. -/

namespace Sys2Proof

/-- A count a slot of a catalog may carry: 0 to 255 (30_encoding.md R80, R81). -/
def Slot.countInRange : Slot → Bool
  | .str n | .skip n => decide (n ≤ 255)
  | .u8 | .s8 | .u16 | .s16 => true

/-- The condition of R164 on one entry: `exp_len = width(layout)` and every slot's count in range. The id is a byte by
its type, and the slot is one of the six kinds by its type. -/
def entryWf (expLen : Nat) (layout : Layout) : Bool :=
  expLen == layoutWidth layout && layout.all Slot.countInRange

/-- A catalog entry (R10, R78) with its well-formedness (R164): an ill-formed entry cannot be written, so an ill-formed
catalog is refused as a value (93_implementation_defined.md U3). -/
structure Entry where
  id : Byte
  name : String
  shortKey : Option String
  expLen : Nat
  layout : Layout
  wf : entryWf expLen layout = true
  deriving DecidableEq, Repr

/-- `CK_TABLE`: 256 bytes, nothing else assumed (41_checksum.md R135). -/
structure CkTable where
  entries : List Byte
  size : entries.length = 256
  deriving DecidableEq, Repr

/-- The table entry at an 8-bit index, which is always in range (20_memory.md R50). -/
def CkTable.get (t : CkTable) (i : Byte) : Byte :=
  t.entries[i.toNat]'(t.size ▸ i.isLt)

/-- The five parameters of R6, fixed for a run. -/
structure Config where
  ckTable : CkTable
  catalog : List Entry
  /-- `none` is `unbounded`. -/
  bufCap : Option Nat
  bitmapMsbFirst : Bool
  bitmapBase : Nat
  deriving DecidableEq, Repr

/-- The 256 values of the reference checksum table, which the spec does not print (R135, 91 N1): OPEN, so nothing can be
proved of them. notes/assumptions/9.md. -/
opaque Config.ckEntries : Fin 256 → Byte

/-- The reference catalog, which the spec does not print (R164, 91 N2): OPEN, well-formed by its type.
notes/assumptions/10.md. -/
opaque Config.referenceCatalog : List Entry

/-- The parameters a block is reset with: the two open tables, and the defaults of R6 for the rest.
DESIGN CHOICE, notes/assumptions/11.md. -/
def Config.initial : Config where
  ckTable := ⟨List.ofFn Config.ckEntries, List.length_ofFn⟩
  catalog := Config.referenceCatalog
  bufCap := none
  bitmapMsbFirst := false
  bitmapBase := 0

end Sys2Proof
end

