-- ==== Sys2Proof/Machine/Operands.lean ====
section
/-! DEFINITION. Operand forms: reads of a telegram, byte order, slot values, the readings of a raw field, and the domains
of the post-extraction operators. Pure functions, no state. -/

namespace Sys2Proof.Machine

/-- `l[i]`; every caller has established `i < len(l)`, so the `0` is never read (20_memory.md R56). -/
def byteAt (l : List Byte) (i : Nat) : Byte := l.getD i 0

/-- `l[i..j]`, elements `i` to `j - 1`, empty when `j <= i` (00_scope.md R8). -/
def subList (l : List Byte) (i j : Nat) : List Byte := (l.drop i).take (j - i)

/-- `TgRead(t, i, n)`, defined only when `i + n <= len(t)` (00_scope.md R9, 20_memory.md R56). -/
def tgRead (t : Telegram) (i n : Nat) : Option (List Byte) :=
  if i + n ≤ t.length then some (subList t i (i + n)) else none

/-- The bytes the checksum covers, `t[0..L-1]`: "all bytes of a telegram except the final byte" (R76, R133). -/
def summedBytes (t : Telegram) : List Byte := subList t 0 (t.length - 1)

/-- The payload `t[4..L-1]`, the bytes "between header and checksum" (R76). -/
def payload (t : Telegram) : List Byte := subList t 4 (t.length - 1)

/-- The 16-bit pattern `(hi << 8) OR lo`: the byte at the lower offset is the more significant (R52). -/
def be16 (hi lo : Byte) : Half := (hi.setWidth 16 <<< 8) ||| lo.setWidth 16

/-- `UP.U8(p, c)` (R181). -/
def valueU8 (p : List Byte) (c : Nat) : RawVal := .u8 (byteAt p c)

/-- `UP.S8(p, c)` (R182). -/
def valueS8 (p : List Byte) (c : Nat) : RawVal := .s8 (byteAt p c)

/-- `UP.U16(p, c)` (R183). -/
def valueU16 (p : List Byte) (c : Nat) : RawVal := .u16 (be16 (byteAt p c) (byteAt p (c + 1)))

/-- `UP.S16(p, c)` (R184). -/
def valueS16 (p : List Byte) (c : Nat) : RawVal := .s16 (be16 (byteAt p c) (byteAt p (c + 1)))

/-- `UP.STR(p, c, n)`: `p[c..c+n]` as it stands (R185). -/
def valueStr (p : List Byte) (c n : Nat) : RawVal := .str (subList p c (c + n))

/-- What a slot at offset `c` adds to the field list: one field, or none for a `SKIP` (R180, R192). -/
def slotFields (sl : Slot) (p : List Byte) (c : Nat) : List RawVal :=
  match sl with
  | .u8 => [valueU8 p c]
  | .s8 => [valueS8 p c]
  | .u16 => [valueU16 p c]
  | .s16 => [valueS16 p c]
  | .str n => [valueStr p c n]
  | .skip _ => []

/-- The value of a numeric field, read as its kind says (R10, R189); a byte string has none. -/
def fieldValue : RawVal → Option Int
  | .u8 v => some v.toNat
  | .s8 v => some v.toInt
  | .u16 v => some v.toNat
  | .s16 v => some v.toInt
  | .str _ => none

/-- The unsigned bit pattern of a numeric field, `v mod 2^W` (R210); a byte string has none. -/
def fieldPattern : RawVal → Option Nat
  | .u8 v | .s8 v => some v.toNat
  | .u16 v | .s16 v => some v.toNat
  | .str _ => none

/-- The bit width `W` of a numeric field's kind (R210). -/
def fieldBits : RawVal → Option Nat
  | .u8 _ | .s8 _ => some 8
  | .u16 _ | .s16 _ => some 16
  | .str _ => none

/-- The least and greatest value of a numeric field's kind (R10). -/
def fieldRange : RawVal → Option (Int × Int)
  | .u8 _ => some (0, 255)
  | .s8 _ => some (-128, 127)
  | .u16 _ => some (0, 65535)
  | .s16 _ => some (-32768, 32767)
  | .str _ => none

/-- The mask is an unsigned integer of the field's width; false for a byte string (R84, R210). -/
def maskInDomain (v : RawVal) (mask : Nat) : Bool :=
  match fieldBits v with
  | some w => decide (mask < 2 ^ w)
  | none => false

/-- The sentinel lies in the value range of the field's kind; false for a byte string (R84, R213). -/
def sentinelInDomain (v : RawVal) (sentinel : Int) : Bool :=
  match fieldRange v with
  | some (lo, hi) => decide (lo ≤ sentinel ∧ sentinel ≤ hi)
  | none => false

/-- The numerator and the denominator are positive integers (R84, R214). -/
def scaleInDomain (num den : Int) : Bool := decide (0 < num ∧ 0 < den)

/-- `(high << 16) OR low`, done in 32 bits (R211). -/
def joinHalves (high low : Half) : BitVec 32 := (high.setWidth 32 <<< 16) ||| low.setWidth 32

/-- `PX.WIDE32` on two fields: `none` outside the domain of two `u16` fields (R211). -/
def wide32 : RawVal → RawVal → Option (BitVec 32)
  | .u16 high, .u16 low => some (joinHalves high low)
  | _, _ => none

/-- `PX.BIT(v, mask)`: `(pattern(v) AND mask) != 0` (R210); `none` for a byte string. -/
def bitTest (v : RawVal) (mask : Nat) : Option Bool :=
  (fieldPattern v).map fun pat => pat &&& mask != 0

/-- `PX.SENT(v, s)`: the comparison is on the value as the slot typed it (R213). -/
def sentTest (v : RawVal) (sentinel : Int) : SentResult :=
  if fieldValue v = some sentinel then .absent else .present v

/-- `PX.SCALE(v, num, den)`: the exact rational `v * num / den`, for `den > 0` (R214). -/
def scaleExact (v num den : Int) : Rat := mkRat (v * num) den.toNat

/-- The bit of a byte that `PX.BITMAP` examines `q`-th (R212). -/
def bitmapBit (msbFirst : Bool) (b : Byte) (q : Nat) : Bool := b.getLsbD (if msbFirst then 7 - q else q)

/-- The indices of the set bits of the bytes `bs`, the first of which is byte `j` (R212). -/
def bitmapFrom (msbFirst : Bool) (base : Nat) : Nat → List Byte → List Nat
  | _, [] => []
  | j, b :: bs =>
    ((List.range 8).filter fun q => bitmapBit msbFirst b q).map (fun q => base + 8 * j + q)
      ++ bitmapFrom msbFirst base (j + 1) bs

/-- `PX.BITMAP(bs)` (R212). -/
def bitmap (msbFirst : Bool) (base : Nat) (bs : List Byte) : List Nat := bitmapFrom msbFirst base 0 bs

/-- The bytes of consecutive `u8` fields in order; `none` when some field is of another kind (R212). -/
def u8Bytes : List RawVal → Option (List Byte)
  | [] => some []
  | .u8 v :: rest => (u8Bytes rest).map (v :: ·)
  | .s8 _ :: _ | .u16 _ :: _ | .s16 _ :: _ | .str _ :: _ => none

/-- How the raw field tuple gives `PX.BITMAP` its bytes: "from one `str` field, or from consecutive `u8` fields in order"
(R212). -/
def bitmapSource : List RawVal → Option (List Byte)
  | [.str bs] => some bs
  | fields => u8Bytes fields

end Sys2Proof.Machine
end

