-- ==== Sys2Proof/Machine/Flags.lean ====
section
/-! DEFINITION. The two one-bit conditions of the block, `RQ` and `LENWARN` (10_state.md R29), the header fields beside
`RQ` in the destination byte, and the numbers of the diagnostics (60_exceptions.md R230). -/

namespace Sys2Proof.Machine

/-- `RQ`, "the high bit of the destination byte" (R75, R153). -/
def requestFlag (dstraw : Byte) : BitVec 1 := dstraw.extractLsb' 7 1

/-- `DST = byte1 AND 0x7F`, bits 6 to 0 (R75, R153). -/
def destination (dstraw : Byte) : BitVec 7 := dstraw.extractLsb' 0 7

/-- The destination byte of a request flag and a destination (R74). -/
def rawDestination (rq : BitVec 1) (dst : BitVec 7) : Byte := rq ++ dst

/-- `LENWARN <- (PLEN != exp_len)` (R158). -/
def lengthWarning (plen expLen : Nat) : Bool := plen != expLen

/-- The code of a diagnostic kind (R230). -/
def diagCode : DiagKind → Nat
  | .malformedMarker => 1
  | .tooShort => 2
  | .badChecksum => 3
  | .unknownType => 4
  | .lengthMismatch => 5
  | .layoutMismatch => 6
  | .parityGlitch => 7
  | .requestSkipped => 8

/-- The severity of a diagnostic kind (R230). -/
def diagSeverity : DiagKind → Severity
  | .malformedMarker | .tooShort | .badChecksum | .layoutMismatch => .error
  | .lengthMismatch => .warning
  | .unknownType | .parityGlitch | .requestSkipped => .info

end Sys2Proof.Machine
end

