-- ==== Sys2Proof/Machine/State.lean ====
section
/-! DEFINITION. The state of EMS-TF as plain data, the reasons a step can stop, and the state after reset. -/

namespace Sys2Proof.Machine

/-- The header registers, "written together by `HD.PARSE`" (10_state.md R25). `DST` is 7 bits wide: bit 7 of the byte that
holds it is hardwired to 0 (R27). -/
structure HeaderRegs where
  src : Byte
  dstraw : Byte
  rq : BitVec 1
  dst : BitVec 7
  typ : Byte
  ofs : Byte
  plen : Nat
  deriving DecidableEq, Repr

/-- The value an operation returned last. The MODEL's own latch, no state of the block: nothing in the block reads it.
DESIGN CHOICE, notes/assumptions/5.md. -/
inductive Result where
  | none
  /-- `CK.COMPUTE` -/
  | byte (b : Byte)
  /-- `CK.CHECK` -/
  | verdict (v : Verdict)
  /-- `DP.RUN` and its steps: the outcome returned, or `none` where the pipeline goes on -/
  | pipeline (o : Option DpOutcome)
  /-- `UP.U8` to `UP.STR` -/
  | field (v : RawVal)
  /-- `UP.UNPACK` -/
  | fields (l : List RawVal)
  /-- `UP.UNPACK` and the slot operations -/
  | layoutMismatch
  /-- `PX.BIT` -/
  | bool (b : Bool)
  /-- `PX.WIDE32` -/
  | wide (v : BitVec 32)
  /-- `PX.BITMAP` -/
  | indices (l : List Nat)
  /-- `PX.SENT` -/
  | sent (r : SentResult)
  /-- `PX.SCALE` -/
  | ratio (q : Rat)
  deriving DecidableEq, Repr

/-- Everything the spec gives the machine. -/
structure State where
  /-- The parameters, `CKT` and `CAT` among them; no operation writes them (R30, R63). -/
  cfg : Config
  /-- `STREAM`: the bytes the source has delivered and no step has consumed (R28, R31). -/
  input : List Byte
  /-- The operation port, the model's own (notes/assumptions/3.md). -/
  call : Option Call
  /-- The output trace since reset (R11, R14). -/
  trace : List Event
  /-- `FS` (R21). -/
  fs : FState
  /-- `BUF`; `BLEN` is its length (R22). -/
  buf : List Byte
  /-- `TG` (R24). -/
  tg : Telegram
  /-- `ACC` (R23). -/
  acc : Byte
  /-- `SRC`, `DSTRAW`, `RQ`, `DST`, `TYP`, `OFS`, `PLEN` (R25). -/
  hdr : HeaderRegs
  /-- `LENWARN` (R29). -/
  lenwarn : Bool
  /-- The index `k` that `CAT.LOOKUP` returned, or none (R150, R156; notes/assumptions/6.md). -/
  k : Option Nat
  /-- `CUR` (R26). -/
  cur : Nat
  /-- `F` (R26). -/
  f : List RawVal
  /-- The result latch, the model's own (notes/assumptions/5.md). -/
  res : Result
  deriving DecidableEq, Repr

/-- The two faults of the spec (60_exceptions.md R239). -/
inductive Fault where
  /-- Raised by an append to a full buffer: `FR.N_DATA`, `FR.S_LIT`, `FR.Z_PERR`, and `FR.STEP` through them (R108).
  Safe: the spec gives no state after it. -/
  | bufferOverflow
  /-- Raised by a step that meets a framer key with state code 3 on the operation port (R21, R72). Safe: the spec makes it
  a fault. -/
  | illegalFramerState
  deriving DecidableEq, Repr

/-- The refusals (00_scope.md R12, *Refuse*): the model gives no meaning, which is safe in every case. -/
inductive Refusal where
  /-- An operation whose meaning is not written yet; no arm of `exec` answers it any more. Safe. -/
  | notModelled (mnemonic : String)
  /-- A step that meets a reserved slot descriptor on the operation port (R81). Safe. -/
  | reservedSlotDescriptor
  /-- A step that meets an 8-bit identifier the table of R85 does not hold on the operation port. Safe. -/
  | unknownOperation
  /-- A step that meets a word of 0, 3 or more than 4 bytes on the operation port. Safe. -/
  | unknownWordLength
  /-- `FR.N_DATA`, `FR.S_BAD`, `FR.Z_PERR` called with a byte their key does not select (R102, R105, R107). Safe. -/
  | byteOutsideTransition
  /-- `CK.CHECK`, and `DP.CKSUM` through it, called directly on a telegram shorter than 2 bytes (R134). Safe. -/
  | telegramTooShortToCheck
  /-- `HD.PARSE` called directly on a telegram shorter than 6 bytes (R153, R56). Safe. -/
  | telegramTooShortToParse
  /-- `DP.LEN`, `DP.UNPACK`, `DP.HANDOFF` called directly while `k` names no catalog entry (R158 to R160). Safe. -/
  | noCatalogEntry
  /-- `PX.BIT` on a byte string or with a mask wider than the field (R84, R210, 93 U15). Safe. -/
  | bitOutsideDomain
  /-- `PX.WIDE32` on an operand that is no `u16` field (R211, 93 U12). Safe. -/
  | wideOutsideDomain
  /-- `PX.SENT` on a byte string or with a sentinel outside the field's range (R84, R213, 93 U15). Safe. -/
  | sentinelOutsideDomain
  /-- `PX.SCALE` with a numerator or denominator that is not positive (R214, 93 U15). Safe. -/
  | scaleOutsideDomain
  deriving DecidableEq, Repr

/-- The header registers at reset: no value is given, each is 0. DESIGN CHOICE, notes/assumptions/7.md. -/
def HeaderRegs.reset : HeaderRegs where
  src := 0
  dstraw := 0
  rq := 0
  dst := 0
  typ := 0
  ofs := 0
  plen := 0

/-- The machine right after reset (10_state.md R34, 70_reset_and_hazards.md R260): `FS` is `NORMAL`, `BUF` and the trace
are empty, the tables hold their parameter values. The other registers are transient and are given named values:
DESIGN CHOICE, notes/assumptions/7.md. -/
def State.reset : State where
  cfg := Config.initial
  input := []
  call := Option.none
  trace := []
  fs := .normal
  buf := []
  tg := []
  acc := 0
  hdr := HeaderRegs.reset
  lenwarn := false
  k := Option.none
  cur := 0
  f := []
  res := Result.none

end Sys2Proof.Machine
end

