-- ==== Sys2Proof/Machine/Ops.lean ====
section
/-! DEFINITION. The named operations over the state: one update per register, the two writes to the buffer, raising a
diagnostic, the checksum, the unpack loop, the catalog search, and the pipeline's short-circuit. -/

namespace Sys2Proof.Machine

/-- What an operation answers. -/
abbrev Answer := Host.Outcome State Fault Refusal

/-! ### Register writes -/

def State.setCall (s : State) (c : Option Call) : State := { s with call := c }
def State.setInput (s : State) (bs : List Byte) : State := { s with input := bs }
def State.setFs (s : State) (fs : FState) : State := { s with fs := fs }
def State.setBuf (s : State) (bs : List Byte) : State := { s with buf := bs }
def State.setTg (s : State) (t : Telegram) : State := { s with tg := t }
def State.setAcc (s : State) (b : Byte) : State := { s with acc := b }
def State.setHdr (s : State) (h : HeaderRegs) : State := { s with hdr := h }
def State.setLenwarn (s : State) (b : Bool) : State := { s with lenwarn := b }
def State.setK (s : State) (k : Option Nat) : State := { s with k := k }
def State.setCur (s : State) (n : Nat) : State := { s with cur := n }
def State.setF (s : State) (l : List RawVal) : State := { s with f := l }
def State.setRes (s : State) (r : Result) : State := { s with res := r }

/-! ### Events and diagnostics -/

/-- `emit e`: append an event to the output, in program order (R9, R11). -/
def State.emit (s : State) (e : Event) : State := { s with trace := s.trace ++ [e] }

/-- RAISING A DIAGNOSTIC, the block's one form of exception (60_exceptions.md R230, R242): the event is appended and
nothing else happens. No state is saved, no mode changes, control goes nowhere, and there is no return (R243). -/
def State.raise (s : State) (kind : DiagKind) (info : List Nat) : State := s.emit (.diag kind info)

/-! ### The buffer -/

/-- `BLEN = BUF_CAP`; never true with `BUF_CAP` unbounded (R108). -/
def State.bufFull (s : State) : Bool :=
  match s.cfg.bufCap with
  | none => false
  | some cap => s.buf.length == cap

/-- `BUF <- BUF ++ [b]`, a fault when the buffer is full (R102, R104, R107, R108). -/
def State.append (s : State) (b : Byte) : Answer :=
  if s.bufFull then .fault .bufferOverflow else .next (s.setBuf (s.buf ++ [b]))

/-- Go on with `g` after an answer that is a next state. -/
def Answer.thenNext (a : Answer) (g : State → State) : Answer :=
  match a with
  | .next s => .next (g s)
  | .fault r => .fault r
  | .refused r => .refused r

/-! ### The checksum (41_checksum.md) -/

/-- `CK_TABLE[acc] XOR b`: the table is indexed by the old accumulator (R131). -/
def ckUpdate (t : CkTable) (acc b : Byte) : Byte := t.get acc ^^^ b

/-- `CK.COMPUTE(bs)`: the left fold of the update from 0 (R132). -/
def ckCompute (t : CkTable) (bs : List Byte) : Byte := bs.foldl (ckUpdate t) 0

/-- `CK.CHECK(t)` for `len(t) >= 2` (R133). -/
def ckVerdict (tbl : CkTable) (t : Telegram) : Verdict :=
  if ckCompute tbl (summedBytes t) = byteAt t (t.length - 1) then .valid else .invalid

/-! ### The unpacker (43_unpacker.md) -/

/-- One iteration of the loop of R180 at the cursor: the slot's fields are appended to `F` and `CUR` moves on, or the
bytes do not suffice, `F` is thrown away, and the answer is `false` (R187; notes/assumptions/17.md). -/
def applySlot (sl : Slot) (p : List Byte) (s : State) : State × Bool :=
  if s.cur + sl.width > p.length then (s.setF [], false)
  else ((s.setF (s.f ++ slotFields sl p s.cur)).setCur (s.cur + sl.width), true)

/-- The slots of a layout, first to last, up to the first that does not fit (R180). -/
def unpackLoop (p : List Byte) : Layout → State → State × Bool
  | [], s => (s, true)
  | sl :: rest, s =>
    match applySlot sl p s with
    | (s', true) => unpackLoop p rest s'
    | (s', false) => (s', false)

/-- `UP.UNPACK(layout, p)`: `false` is `LayoutMismatch` (R180). -/
def unpack (layout : Layout) (p : List Byte) (s : State) : State × Bool :=
  unpackLoop p layout ((s.setCur 0).setF [])

/-! ### The catalog (42_decoder_pipeline.md R156, R157) -/

/-- The first entry whose id is `typ` of the entries from index `k` on. -/
def lookupFrom (typ : Byte) : Nat → List Entry → Option (Nat × Entry)
  | _, [] => none
  | k, e :: rest => if e.id = typ then some (k, e) else lookupFrom typ (k + 1) rest

/-- `CAT.LOOKUP(TYP)`: the first match in catalog order (R156, R157). -/
def lookup (typ : Byte) (catalog : List Entry) : Option (Nat × Entry) := lookupFrom typ 0 catalog

/-- The entry the register `k` names. -/
def State.selected (s : State) : Option (Nat × Entry) :=
  match s.k with
  | none => none
  | some k =>
    match s.cfg.catalog[k]? with
    | none => none
    | some e => some (k, e)

/-! ### The header registers (42_decoder_pipeline.md R153) -/

/-- The registers that four header bytes give, with the payload length `plen` (R153). -/
def headerRegs (b0 b1 b2 b3 : Byte) (plen : Nat) : HeaderRegs where
  src := b0
  dstraw := b1
  rq := requestFlag b1
  dst := destination b1
  typ := b2
  ofs := b3
  plen := plen

/-- The header record of an event, from the registers (R160). -/
def HeaderRegs.record (h : HeaderRegs) : Header where
  src := h.src
  rq := h.rq
  dst := h.dst
  typ := h.typ
  ofs := h.ofs

/-! ### The pipeline's short-circuit (42_decoder_pipeline.md R150) -/

/-- A step of the pipeline: the state after it, and the outcome it returns, `none` where the pipeline goes on. -/
abbrev DpStep := State × Option DpOutcome

/-- `return outcome` leaves the pipeline; otherwise the rest runs (R9, R150: "in order, short-circuiting on failure"). -/
def DpStep.orElse (r : DpStep) (rest : State → State × DpOutcome) : State × DpOutcome :=
  match r with
  | (s, some o) => (s, o)
  | (s, none) => rest s

/-- A pipeline step run by itself: its outcome is left in the result latch (notes/assumptions/18.md). -/
def DpStep.latch (r : DpStep) : State := r.1.setRes (.pipeline r.2)

end Sys2Proof.Machine
end

