-- ==== Sys2Proof/Machine/Checksum.lean ====
section
/-! DEFINITION. The checksum unit CK (41_checksum.md). -/

namespace Sys2Proof.Machine

/-- `CK.INIT` (R130). -/
def execCkInit (s : State) : Answer := .next (s.setAcc 0)

/-- `CK.UPDATE(b)` (R131). -/
def execCkUpdate (b : Byte) (s : State) : Answer := .next (s.setAcc (ckUpdate s.cfg.ckTable s.acc b))

/-- `CK.COMPUTE(bs)`: `ACC` is left at the checksum, which is what is returned (R132). -/
def execCkCompute (bs : List Byte) (s : State) : Answer :=
  let c := ckCompute s.cfg.ckTable bs
  .next ((s.setAcc c).setRes (.byte c))

/-- The state effect of `CK.CHECK`: `ACC` holds the computed checksum (R133). -/
def ckCheckState (s : State) : State := s.setAcc (ckCompute s.cfg.ckTable (summedBytes s.tg))

/-- `CK.CHECK(t)` with `t` in `TG`; refused below 2 bytes (R133, R134). -/
def execCkCheck (s : State) : Answer :=
  if s.tg.length < 2 then .refused .telegramTooShortToCheck
  else .next ((ckCheckState s).setRes (.verdict (ckVerdict s.cfg.ckTable s.tg)))

end Sys2Proof.Machine
end

