-- ==== Sys2Proof/Machine/Unpacker.lean ====
section
/-! DEFINITION. The field unpacker UP (43_unpacker.md). A slot operation run by itself is one iteration of the loop of R180
on the payload of `TG` at `CUR` (notes/assumptions/16.md). -/

namespace Sys2Proof.Machine

/-- One slot on the payload of `TG`; `returned` is what the operation returns when the bytes suffice. -/
def runSlot (sl : Slot) (returned : Result) (s : State) : Answer :=
  match applySlot sl (payload s.tg) s with
  | (s', true) => .next (s'.setRes returned)
  | (s', false) => .next (s'.setRes .layoutMismatch)

/-- `UP.U8` (R181). -/
def execUpU8 (s : State) : Answer := runSlot .u8 (.field (valueU8 (payload s.tg) s.cur)) s

/-- `UP.S8` (R182). -/
def execUpS8 (s : State) : Answer := runSlot .s8 (.field (valueS8 (payload s.tg) s.cur)) s

/-- `UP.U16` (R183). -/
def execUpU16 (s : State) : Answer := runSlot .u16 (.field (valueU16 (payload s.tg) s.cur)) s

/-- `UP.S16` (R184). -/
def execUpS16 (s : State) : Answer := runSlot .s16 (.field (valueS16 (payload s.tg) s.cur)) s

/-- `UP.STR(n)` (R185). -/
def execUpStr (n : Nat) (s : State) : Answer := runSlot (.str n) (.field (valueStr (payload s.tg) s.cur n)) s

/-- `UP.SKIP(n)`: nothing is returned (R186). -/
def execUpSkip (n : Nat) (s : State) : Answer := runSlot (.skip n) s.res s

/-- `UP.UNPACK(layout, p)` (R180). -/
def execUpUnpack (layout : Layout) (p : List Byte) (s : State) : Answer :=
  match unpack layout p s with
  | (s', true) => .next (s'.setRes (.fields s'.f))
  | (s', false) => .next (s'.setRes .layoutMismatch)

end Sys2Proof.Machine
end

