-- ==== Sys2Proof/Machine/Pipeline.lean ====
section
/-! DEFINITION. The decoder pipeline DP, the header parse HD and the catalog lookup CAT (42_decoder_pipeline.md). The
telegram `t` of every rule is the latch `TG`. -/

namespace Sys2Proof.Machine

/-! ### The steps -/

/-- Step 1, `DP.POLL` (R151). -/
def dpPoll (s : State) : DpStep :=
  if s.tg.length = 1 then (s, some .poll) else (s, none)

/-- Step 2, `DP.SHORT` (R152). -/
def dpShort (s : State) : DpStep :=
  if s.tg.length < 6 then (s.raise .tooShort [s.tg.length], some .tooShort) else (s, none)

/-- Step 3, `HD.PARSE`, for a telegram of 6 or more bytes (R153). -/
def hdParse (s : State) : State :=
  s.setHdr (headerRegs (byteAt s.tg 0) (byteAt s.tg 1) (byteAt s.tg 2) (byteAt s.tg 3) (s.tg.length - 5))

/-- Step 4, `DP.REQ` (R154). -/
def dpReq (s : State) : DpStep :=
  if s.hdr.rq = 1 then
    (s.raise .requestSkipped [s.hdr.src.toNat, s.hdr.dst.toNat, s.hdr.typ.toNat, s.hdr.ofs.toNat], some .request)
  else (s, none)

/-- Step 5, `DP.CKSUM`, for a telegram of 2 or more bytes (R155). -/
def dpCksum (s : State) : DpStep :=
  let s1 := ckCheckState s
  match ckVerdict s.cfg.ckTable s.tg with
  | .valid => (s1, none)
  | .invalid =>
    (s1.raise .badChecksum [s1.acc.toNat, (byteAt s.tg (s.tg.length - 1)).toNat], some .badChecksum)

/-- Step 6, the miss of `CAT.LOOKUP` (R156). -/
def unknownType (s : State) : State := (s.setK none).raise .unknownType [s.hdr.typ.toNat]

/-- Step 6, `CAT.LOOKUP` (R156, R157). -/
def catLookup (s : State) : DpStep :=
  match lookup s.hdr.typ s.cfg.catalog with
  | none => (unknownType s, some .unknownType)
  | some (k, _) => (s.setK (some k), none)

/-- Step 7, `DP.LEN` with entry `e` at index `k`: a warning, never a return (R158). -/
def dpLen (k : Nat) (e : Entry) (s : State) : State :=
  let warn := lengthWarning s.hdr.plen e.expLen
  let s1 := s.setLenwarn warn
  if warn then s1.raise .lengthMismatch [k, s.hdr.plen, e.expLen] else s1

/-- Step 8, `DP.UNPACK` with entry `e` at index `k` (R159). -/
def dpUnpack (k : Nat) (e : Entry) (s : State) : DpStep :=
  match unpack e.layout (payload s.tg) s with
  | (s', true) => (s', none)
  | (s', false) => (s'.raise .layoutMismatch [k, s.hdr.plen, layoutWidth e.layout], some .layoutMismatch)

/-- Steps 9 and 10, `DP.HANDOFF` of index `k` (R160). -/
def dpHandoff (k : Nat) (s : State) : State × DpOutcome :=
  (s.emit (.raw k s.hdr.record s.f (!s.lenwarn)), .decoded)

/-- Steps 7 to 10 with entry `e` at index `k` (R150). -/
def dpDecode (k : Nat) (e : Entry) (s : State) : State × DpOutcome :=
  (dpUnpack k e (dpLen k e s)).orElse (dpHandoff k)

/-- Steps 6 to 10 (R150). -/
def dpLookupAndDecode (s : State) : State × DpOutcome :=
  match lookup s.hdr.typ s.cfg.catalog with
  | none => (unknownType s, .unknownType)
  | some (k, e) => dpDecode k e (s.setK (some k))

/-- `DP.RUN`: the steps in order, short-circuiting (R150). -/
def dpRun (s : State) : State × DpOutcome :=
  (dpPoll s).orElse fun s => (dpShort s).orElse fun s => (dpReq (hdParse s)).orElse fun s =>
    (dpCksum s).orElse dpLookupAndDecode

/-! ### The operations -/

/-- `DP.RUN` (R150). -/
def execDpRun (s : State) : Answer :=
  match dpRun s with
  | (s', o) => .next (s'.setRes (.pipeline (some o)))

/-- `DP.POLL` (R151). -/
def execDpPoll (s : State) : Answer := .next (dpPoll s).latch

/-- `DP.SHORT` (R152). -/
def execDpShort (s : State) : Answer := .next (dpShort s).latch

/-- `HD.PARSE` (R153); refused below the 6 bytes its operand has. -/
def execHdParse (s : State) : Answer :=
  if s.tg.length < 6 then .refused .telegramTooShortToParse else .next (hdParse s)

/-- `DP.REQ` (R154). -/
def execDpReq (s : State) : Answer := .next (dpReq s).latch

/-- `DP.CKSUM` (R155); refused where `CK.CHECK` is (R134). -/
def execDpCksum (s : State) : Answer :=
  if s.tg.length < 2 then .refused .telegramTooShortToCheck else .next (dpCksum s).latch

/-- `CAT.LOOKUP` (R156). -/
def execCatLookup (s : State) : Answer := .next (catLookup s).latch

/-- `DP.LEN` (R158); refused where there is no entry `CATALOG[k]`. -/
def execDpLen (s : State) : Answer :=
  match s.selected with
  | none => .refused .noCatalogEntry
  | some (k, e) => .next (DpStep.latch (dpLen k e s, none))

/-- `DP.UNPACK` (R159); refused where there is no entry `CATALOG[k]`. -/
def execDpUnpack (s : State) : Answer :=
  match s.selected with
  | none => .refused .noCatalogEntry
  | some (k, e) => .next (dpUnpack k e s).latch

/-- `DP.HANDOFF` (R160); refused where `k` is none. -/
def execDpHandoff (s : State) : Answer :=
  match s.k with
  | none => .refused .noCatalogEntry
  | some k =>
    match dpHandoff k s with
    | (s', o) => .next (s'.setRes (.pipeline (some o)))

/-- `HD.HEADER`: the header registers from the 32-bit pattern (R74, R75, R153). `PLEN` is `L - 5` when `TG` holds a parsed
telegram, and is left alone when it does not (notes/assumptions/19.md). -/
def execHdHeader (h : Header) (s : State) : Answer :=
  let plen := if s.tg.length < 6 then s.hdr.plen else s.tg.length - 5
  .next (s.setHdr (headerRegs h.src (rawDestination h.rq h.dst) h.typ h.ofs plen))

end Sys2Proof.Machine
end

