-- ==== Sys2Proof/Machine/Framer.lean ====
section
/-! DEFINITION. The framer FR (40_framer.md). -/

namespace Sys2Proof.Machine

/-- `FR.N_MARK` (R101). -/
def execFrNMark (s : State) : Answer := .next (s.setFs .markSeen)

/-- `FR.N_DATA(b)`, `b != 0xFF` (R102). -/
def execFrNData (b : Byte) (s : State) : Answer :=
  if b = markerByte then .refused .byteOutsideTransition
  else (s.append b).thenNext fun s => s.setFs .normal

/-- `FR.S_ZERO` (R103). -/
def execFrSZero (s : State) : Answer := .next (s.setFs .markZero)

/-- `FR.S_LIT` (R104). -/
def execFrSLit (s : State) : Answer := (s.append markerByte).thenNext fun s => s.setFs .normal

/-- `FR.S_BAD(b)`, `b` neither `0x00` nor `0xFF` (R105). -/
def execFrSBad (b : Byte) (s : State) : Answer :=
  if b = zeroByte ∨ b = markerByte then .refused .byteOutsideTransition
  else .next ((s.raise .malformedMarker [b.toNat]).setFs .normal)

/-- The framer's part of `FR.Z_BREAK`: the buffer becomes the telegram (R106). -/
def closeTelegram (s : State) : State :=
  (((s.setTg s.buf).setBuf []).setFs .normal).emit (.telegram s.buf)

/-- `FR.Z_BREAK`: the pipeline runs within the step; its outcome is not stored (R106, R162). -/
def execFrZBreak (s : State) : Answer := .next (dpRun (closeTelegram s)).1

/-- `FR.Z_PERR(b)`, `b != 0x00` (R107). -/
def execFrZPerr (b : Byte) (s : State) : Answer :=
  if b = zeroByte then .refused .byteOutsideTransition
  else (s.append b).thenNext fun s => (s.setFs .normal).raise .parityGlitch [b.toNat]

/-- `FR.STEP(b)`: the one transition that applies (R100). -/
def execFrStep (b : Byte) (s : State) : Answer :=
  match s.fs with
  | .normal => if b = markerByte then execFrNMark s else execFrNData b s
  | .markSeen =>
    if b = zeroByte then execFrSZero s else if b = markerByte then execFrSLit s else execFrSBad b s
  | .markZero => if b = zeroByte then execFrZBreak s else execFrZPerr b s

end Sys2Proof.Machine
end

