-- ==== Sys2Proof/Machine/PostOps.lean ====
section
/-! DEFINITION. The post-extraction operators PX (44_field_postops.md): each reads its operands and the two bitmap
parameters and returns a value (R217). -/

namespace Sys2Proof.Machine

/-- `PX.BIT(v, mask)` (R210). -/
def execPxBit (v : RawVal) (mask : Nat) (s : State) : Answer :=
  match maskInDomain v mask, bitTest v mask with
  | true, some b => .next (s.setRes (.bool b))
  | _, _ => .refused .bitOutsideDomain

/-- `PX.WIDE32(high, low)` (R211). -/
def execPxWide32 (high low : RawVal) (s : State) : Answer :=
  match wide32 high low with
  | some v => .next (s.setRes (.wide v))
  | none => .refused .wideOutsideDomain

/-- `PX.BITMAP(bs)` (R212). -/
def execPxBitmap (bs : List Byte) (s : State) : Answer :=
  .next (s.setRes (.indices (bitmap s.cfg.bitmapMsbFirst s.cfg.bitmapBase bs)))

/-- `PX.SENT(v, s)` (R213). -/
def execPxSent (v : RawVal) (sentinel : Int) (s : State) : Answer :=
  if sentinelInDomain v sentinel then .next (s.setRes (.sent (sentTest v sentinel)))
  else .refused .sentinelOutsideDomain

/-- `PX.SCALE(v, num, den)` (R214). -/
def execPxScale (v num den : Int) (s : State) : Answer :=
  if scaleInDomain num den then .next (s.setRes (.ratio (scaleExact v num den)))
  else .refused .scaleOutsideDomain

/-- The value of a field that `PX.SENT` returned as present; none where it returned *absent*, and for every other result. -/
def presentValue : Result → Option Int
  | .sent (.present w) => fieldValue w
  | _ => none

/-- `PX.SCALE` on the field that `PX.SENT` left in the latch, where it is present; else the state as it is. -/
def scalePresent (num den : Int) (t : State) : Answer :=
  match presentValue t.res with
  | some x => execPxScale x num den t
  | none => .next t

/-- The composition of R215, over the two operations with their domains: `PX.SENT` first, on the raw value; only a present
value goes to `PX.SCALE` (notes/assumptions/32.md). -/
def sentThenScale (v : RawVal) (sentinel num den : Int) (s : State) : Answer :=
  match execPxSent v sentinel s with
  | .next t => scalePresent num den t
  | .fault r => .fault r
  | .refused r => .refused r

end Sys2Proof.Machine
end

