-- ==== Sys2Proof/Machine/Reset.lean ====
section
/-! DEFINITION. `RESET` (70_reset_and_hazards.md R260). -/

namespace Sys2Proof.Machine

/-- `RESET`: `FS`, `BUF` and the trace as after reset; the tables keep their values; the byte source does not know about it
(R260, R261). The transient registers take their values of `State.reset` (notes/assumptions/8.md). -/
def execReset (s : State) : Answer :=
  .next { State.reset with cfg := s.cfg, input := s.input, call := s.call }

end Sys2Proof.Machine
end

