-- ==== Sys2Proof/Machine/Dispatch.lean ====
section
/-! DEFINITION. One arm per operation. -/

namespace Sys2Proof.Machine

/-- The meaning of every operation of spec/opcode_table.json. -/
def exec (i : Instr) (s : State) : Host.Outcome State Fault Refusal :=
  match i with
  -- format FRKEY
  | .frNMark => Sys2Proof.Machine.execFrNMark s
  | .frNData b => Sys2Proof.Machine.execFrNData b s
  | .frSZero => Sys2Proof.Machine.execFrSZero s
  | .frSLit => Sys2Proof.Machine.execFrSLit s
  | .frSBad b => Sys2Proof.Machine.execFrSBad b s
  | .frZBreak => Sys2Proof.Machine.execFrZBreak s
  | .frZPerr b => Sys2Proof.Machine.execFrZPerr b s
  -- format SLOT16
  | .upU8 => Sys2Proof.Machine.execUpU8 s
  | .upS8 => Sys2Proof.Machine.execUpS8 s
  | .upU16 => Sys2Proof.Machine.execUpU16 s
  | .upS16 => Sys2Proof.Machine.execUpS16 s
  | .upStr n => Sys2Proof.Machine.execUpStr n s
  | .upSkip n => Sys2Proof.Machine.execUpSkip n s
  -- format OPID
  | .frStep b => Sys2Proof.Machine.execFrStep b s
  | .ckInit => Sys2Proof.Machine.execCkInit s
  | .ckUpdate b => Sys2Proof.Machine.execCkUpdate b s
  | .ckCompute bs => Sys2Proof.Machine.execCkCompute bs s
  | .ckCheck => Sys2Proof.Machine.execCkCheck s
  | .dpRun => Sys2Proof.Machine.execDpRun s
  | .dpPoll => Sys2Proof.Machine.execDpPoll s
  | .dpShort => Sys2Proof.Machine.execDpShort s
  | .hdParse => Sys2Proof.Machine.execHdParse s
  | .dpReq => Sys2Proof.Machine.execDpReq s
  | .dpCksum => Sys2Proof.Machine.execDpCksum s
  | .catLookup => Sys2Proof.Machine.execCatLookup s
  | .dpLen => Sys2Proof.Machine.execDpLen s
  | .dpUnpack => Sys2Proof.Machine.execDpUnpack s
  | .dpHandoff => Sys2Proof.Machine.execDpHandoff s
  | .upUnpack layout p => Sys2Proof.Machine.execUpUnpack layout p s
  | .pxBit v mask => Sys2Proof.Machine.execPxBit v mask s
  | .pxWide32 high low => Sys2Proof.Machine.execPxWide32 high low s
  | .pxBitmap bs => Sys2Proof.Machine.execPxBitmap bs s
  | .pxSent v sentinel => Sys2Proof.Machine.execPxSent v sentinel s
  | .pxScale v num den => Sys2Proof.Machine.execPxScale v num den s
  | .reset => Sys2Proof.Machine.execReset s
  -- format HDR32
  | .hdHeader h => Sys2Proof.Machine.execHdHeader h s

end Sys2Proof.Machine
end

