-- ==== Sys2Proof/WellFormed.lean ====
section
/-! DEFINITION. Well-formed operations: the operand conditions the spec states for each operation. -/

namespace Sys2Proof

/-- Every slot of a layout has a binary descriptor, that is a count of 0 to 255 (R80). -/
def layoutWf (layout : Layout) : Bool := layout.all Slot.countInRange

/-- `v` is a field of kind `u16` (R211). -/
def isU16 : RawVal → Bool
  | .u16 _ => true
  | .u8 _ | .s8 _ | .s16 _ | .str _ => false

/-- The operand conditions of every operation: the byte of a framer transition is one its key selects (R102, R105,
R107), a slot's count fits its descriptor (R80), and the `PX` operands are in their domains (R210 to R214). -/
def Instr.wf : Instr → Bool
  | .frNData b => b != markerByte
  | .frSBad b => b != zeroByte && b != markerByte
  | .frZPerr b => b != zeroByte
  | .upStr n | .upSkip n => decide (n ≤ 255)
  | .upUnpack layout _ => layoutWf layout
  | .pxBit v mask => Machine.maskInDomain v mask
  | .pxWide32 high low => isU16 high && isU16 low
  | .pxSent v sentinel => Machine.sentinelInDomain v sentinel
  | .pxScale _ num den => Machine.scaleInDomain num den
  | .frNMark | .frSZero | .frSLit | .frZBreak | .upU8 | .upS8 | .upU16 | .upS16 | .frStep _ | .ckInit | .ckUpdate _
  | .ckCompute _ | .ckCheck | .dpRun | .dpPoll | .dpShort | .hdParse | .dpReq | .dpCksum | .catLookup | .dpLen
  | .dpUnpack | .dpHandoff | .pxBitmap _ | .reset | .hdHeader _ => true

end Sys2Proof
end

