-- ==== Sys2Proof/Decode.lean ====
section
/-! DEFINITION. Decoding of the four word formats of spec/opcode_table.json (FRKEY, SLOT16, OPID, HDR32), of layouts, and
the encoder. Words are bytes, most significant first (notes/assumptions/14.md). -/

namespace Sys2Proof

/-- Why a word or a layout decodes to nothing. -/
inductive DecodeError where
  | illegalFramerState
  | reservedSlotDescriptor
  | unknownOperation
  | unknownWordLength
  deriving DecidableEq, Repr

/-! ### The framer key (30_encoding.md R72) -/

/-- `code(FS)` (R21, R72). -/
def framerCode : FState → BitVec 2
  | .normal => 0
  | .markSeen => 1
  | .markZero => 2

/-- The state a 2-bit code names; code 3 names none (R21). -/
def framerStateOf (c : BitVec 2) : Option FState :=
  if c = 0 then some .normal else if c = 1 then some .markSeen else if c = 2 then some .markZero else none

/-- The decode key `K = (code(FS) << 8) OR byte` (R72). -/
def framerKey (fs : FState) (b : Byte) : BitVec 10 := framerCode fs ++ b

/-- The byte in bits 7 to 0 of a key. -/
def keyByte (key : BitVec 10) : Byte := key.extractLsb' 0 8

/-- The state code in bits 9 to 8 of a key. -/
def keyCode (key : BitVec 10) : BitVec 2 := key.extractLsb' 8 2

/-- A row of the table of R72. -/
structure KeyRow where
  pattern : BitVec 10
  mask : BitVec 10
  priority : Nat
  make : Byte → Instr

/-- The table of R72. -/
def keyTable : List KeyRow := [
  ⟨0x0FF, 0x3FF, 2, fun _ => .frNMark⟩,
  ⟨0x000, 0x300, 1, fun b => .frNData b⟩,
  ⟨0x100, 0x3FF, 2, fun _ => .frSZero⟩,
  ⟨0x1FF, 0x3FF, 2, fun _ => .frSLit⟩,
  ⟨0x100, 0x300, 1, fun b => .frSBad b⟩,
  ⟨0x200, 0x3FF, 2, fun _ => .frZBreak⟩,
  ⟨0x200, 0x300, 1, fun b => .frZPerr b⟩]

/-- Match and mask on the key (R72). -/
def KeyRow.selects (r : KeyRow) (key : BitVec 10) : Bool := key &&& r.mask == r.pattern

/-- Of the rows that match, the one of the highest priority; of equal ones the first (R72: equal rows never overlap). -/
def bestRow (key : BitVec 10) : List KeyRow → Option KeyRow
  | [] => none
  | r :: rest =>
    match bestRow key rest with
    | none => if r.selects key then some r else none
    | some best => if r.selects key && decide (best.priority ≤ r.priority) then some r else some best

/-- The transition a key selects; keys `0x300` to `0x3FF` select nothing (R72). -/
def decodeKey (key : BitVec 10) : Option Instr :=
  (bestRow key keyTable).map fun r => r.make (keyByte key)

/-! ### Slot descriptors and layouts (30_encoding.md R80 to R83) -/

/-- A row of the table of R80. -/
structure SlotRow where
  pattern : Half
  mask : Half
  make : Nat → Slot

/-- The table of R80. -/
def slotTable : List SlotRow := [
  ⟨0x4201, 0xFFFF, fun _ => .u8⟩,
  ⟨0x6201, 0xFFFF, fun _ => .s8⟩,
  ⟨0x4801, 0xFFFF, fun _ => .u16⟩,
  ⟨0x6801, 0xFFFF, fun _ => .s16⟩,
  ⟨0x7300, 0xFF00, fun n => .str n⟩,
  ⟨0x7800, 0xFF00, fun n => .skip n⟩]

/-- The slot of a descriptor; every value that no row matches is reserved (R80, R81). -/
def decodeSlot (d : Half) : Option Slot :=
  (slotTable.find? fun r => d &&& r.mask == r.pattern).map fun r => r.make (d.extractLsb' 0 8).toNat

/-- The descriptor of a slot (R80), for counts of 0 to 255. -/
def encodeSlot : Slot → Half
  | .u8 => 0x4201
  | .s8 => 0x6201
  | .u16 => 0x4801
  | .s16 => 0x6801
  | .str n => 0x7300 ||| BitVec.ofNat 16 n
  | .skip n => 0x7800 ||| BitVec.ofNat 16 n

/-- "A layout is the list of its descriptors in order" (R80); one reserved descriptor makes it ill-formed (R81). -/
def decodeLayout : List Half → Option Layout
  | [] => some []
  | d :: ds =>
    match decodeSlot d, decodeLayout ds with
    | some s, some rest => some (s :: rest)
    | _, _ => none

/-- The descriptors of a layout in order (R80). -/
def encodeLayout (layout : Layout) : List Half := layout.map encodeSlot

/-- What one item of the layout text stands for: a count on a numeric letter repeats the slot, a count on `s` or `x` is
the byte length of one slot (R82, R83). -/
def expandItem (count : Option Nat) (letter : Char) : Option Layout :=
  let n := count.getD 1
  if letter = 'B' then some (List.replicate n .u8)
  else if letter = 'b' then some (List.replicate n .s8)
  else if letter = 'H' then some (List.replicate n .u16)
  else if letter = 'h' then some (List.replicate n .s16)
  else if letter = 's' then some [.str n]
  else if letter = 'x' then some [.skip n]
  else none

/-- The items of the layout text; `count` is the count read so far for the item under way. Blanks are ignored between
items only (R82; notes/assumptions/23.md). -/
def parseItems : Option Nat → List Char → Option Layout
  | none, [] => some []
  | some _, [] => none
  | count, ch :: rest =>
    if ch.isDigit then
      let n := 10 * count.getD 0 + (ch.toNat - 48)
      if n ≤ 255 then parseItems (some n) rest else none
    else if ch = ' ' then
      match count with
      | none => parseItems none rest
      | some _ => none
    else
      match expandItem count ch, parseItems none rest with
      | some slots, some more => some (slots ++ more)
      | _, _ => none

/-- The layout of a text `'>'? item*` (R82). -/
def parseLayout (text : List Char) : Option Layout :=
  match text with
  | '>' :: rest => parseItems none rest
  | _ => parseItems none text

/-! ### The header pattern (30_encoding.md R74, R75) -/

/-- The header of the four leading bytes of a telegram (R74, R75). -/
def headerOfBytes (b0 b1 b2 b3 : Byte) : Header where
  src := b0
  rq := Machine.requestFlag b1
  dst := Machine.destination b1
  typ := b2
  ofs := b3

/-- The four bytes of a header, byte 0 first (R74). -/
def headerBytes (h : Header) : List Byte :=
  [h.src, Machine.rawDestination h.rq h.dst, h.typ, h.ofs]

/-! ### Operation identifiers (30_encoding.md R85) -/

/-- The table of R85, each identifier with the operation it names and the typed operands the operation takes. -/
def opTable : List (Byte × (Args → Instr)) := [
  (0x00, fun a => .frStep a.b),
  (0x10, fun _ => .ckInit),
  (0x11, fun a => .ckUpdate a.b),
  (0x12, fun a => .ckCompute a.bs),
  (0x13, fun _ => .ckCheck),
  (0x20, fun _ => .dpRun),
  (0x21, fun _ => .dpPoll),
  (0x22, fun _ => .dpShort),
  (0x23, fun _ => .hdParse),
  (0x24, fun _ => .dpReq),
  (0x25, fun _ => .dpCksum),
  (0x26, fun _ => .catLookup),
  (0x27, fun _ => .dpLen),
  (0x28, fun _ => .dpUnpack),
  (0x29, fun _ => .dpHandoff),
  (0x30, fun a => .upUnpack a.layout a.bs),
  (0x40, fun a => .pxBit a.v a.mask),
  (0x41, fun a => .pxWide32 a.v a.w),
  (0x42, fun a => .pxBitmap a.bs),
  (0x43, fun a => .pxSent a.v a.sentinel),
  (0x44, fun a => .pxScale a.x a.num a.den),
  (0x7F, fun _ => .reset)]

/-- The operation of an identifier (R85). -/
def decodeOp (op : Byte) (a : Args) : Option Instr :=
  (opTable.find? fun row => row.1 == op).map fun row => row.2 a

/-! ### Words of every format -/

/-- The operation a slot descriptor stands for (R80, R85). -/
def slotInstr : Slot → Instr
  | .u8 => .upU8
  | .s8 => .upS8
  | .u16 => .upU16
  | .s16 => .upS16
  | .str n => .upStr n
  | .skip n => .upSkip n

/-- A 16-bit word: a framer key when its top six bits are 0 (R72), else a slot descriptor (R80). The two never meet: no
kind code is below 4. -/
def decodeHalf (w : Half) : Except DecodeError Instr :=
  if w.toNat < 0x400 then
    match decodeKey (w.extractLsb' 0 10) with
    | some i => .ok i
    | none => .error .illegalFramerState
  else
    match decodeSlot w with
    | some s => .ok (slotInstr s)
    | none => .error .reservedSlotDescriptor

/-- Decode a word given as bytes, most significant first, with the typed operands that come with it: one byte is an
identifier (OPID), two bytes a key or a descriptor (FRKEY, SLOT16), four bytes a header pattern (HDR32). Total. -/
def decode (word : List Byte) (a : Args) : Except DecodeError Instr :=
  match word with
  | [op] =>
    match decodeOp op a with
    | some i => .ok i
    | none => .error .unknownOperation
  | [hi, lo] => decodeHalf (Machine.be16 hi lo)
  | [b0, b1, b2, b3] => .ok (.hdHeader (headerOfBytes b0 b1 b2 b3))
  | _ => .error .unknownWordLength

/-! ### The encoder -/

/-- The two bytes of a 16-bit word, most significant first. -/
def halfBytes (w : Half) : List Byte := [w.extractLsb' 8 8, w.extractLsb' 0 8]

/-- The key of a framer transition as a 16-bit word, top six bits 0. -/
def keyWord (fs : FState) (b : Byte) : Half := (framerKey fs b).setWidth 16

/-- The word of an operation (R72, R74, R80, R85). -/
def encodeWord : Instr → List Byte
  | .frNMark => halfBytes (keyWord .normal markerByte)
  | .frNData b => halfBytes (keyWord .normal b)
  | .frSZero => halfBytes (keyWord .markSeen zeroByte)
  | .frSLit => halfBytes (keyWord .markSeen markerByte)
  | .frSBad b => halfBytes (keyWord .markSeen b)
  | .frZBreak => halfBytes (keyWord .markZero zeroByte)
  | .frZPerr b => halfBytes (keyWord .markZero b)
  | .upU8 => halfBytes (encodeSlot .u8)
  | .upS8 => halfBytes (encodeSlot .s8)
  | .upU16 => halfBytes (encodeSlot .u16)
  | .upS16 => halfBytes (encodeSlot .s16)
  | .upStr n => halfBytes (encodeSlot (.str n))
  | .upSkip n => halfBytes (encodeSlot (.skip n))
  | .frStep _ => [0x00]
  | .ckInit => [0x10]
  | .ckUpdate _ => [0x11]
  | .ckCompute _ => [0x12]
  | .ckCheck => [0x13]
  | .dpRun => [0x20]
  | .dpPoll => [0x21]
  | .dpShort => [0x22]
  | .hdParse => [0x23]
  | .dpReq => [0x24]
  | .dpCksum => [0x25]
  | .catLookup => [0x26]
  | .dpLen => [0x27]
  | .dpUnpack => [0x28]
  | .dpHandoff => [0x29]
  | .upUnpack _ _ => [0x30]
  | .pxBit _ _ => [0x40]
  | .pxWide32 _ _ => [0x41]
  | .pxBitmap _ => [0x42]
  | .pxSent _ _ => [0x43]
  | .pxScale _ _ _ => [0x44]
  | .reset => [0x7F]
  | .hdHeader h => headerBytes h

/-- The typed operands of an operation that no word carries (R84). -/
def encodeArgs : Instr → Args
  | .frStep b | .ckUpdate b => { b := b }
  | .ckCompute bs | .pxBitmap bs => { bs := bs }
  | .upUnpack layout p => { layout := layout, bs := p }
  | .pxBit v mask => { v := v, mask := mask }
  | .pxWide32 high low => { v := high, w := low }
  | .pxSent v sentinel => { v := v, sentinel := sentinel }
  | .pxScale v num den => { x := v, num := num, den := den }
  | .frNMark | .frNData _ | .frSZero | .frSLit | .frSBad _ | .frZBreak | .frZPerr _ | .upU8 | .upS8 | .upU16 | .upS16
  | .upStr _ | .upSkip _ | .ckInit | .ckCheck | .dpRun | .dpPoll | .dpShort | .hdParse | .dpReq | .dpCksum | .catLookup
  | .dpLen | .dpUnpack | .dpHandoff | .reset | .hdHeader _ => {}

/-- The call that asks for an operation: its word and its typed operands. -/
def encode (i : Instr) : Call := ⟨encodeWord i, encodeArgs i⟩

/-! ### The stuffing function (30_encoding.md R90) -/

/-- The stream bytes of one data byte: `FF FF` for `FF`, the byte itself otherwise (R90). -/
def stuffByte (b : Byte) : List Byte := if b = markerByte then [markerByte, markerByte] else [b]

/-- `BRK`, the break sequence (R87). -/
def breakSequence : List Byte := [markerByte, zeroByte, zeroByte]

/-- `stuff(t)`, "the stream that carries telegram `t` with no errors" (R90). -/
def stuff (t : Telegram) : List Byte := t.flatMap stuffByte ++ breakSequence

/-! ### Words numbered as spec/opcode_table.json numbers them -/

/-- A word of `n` bytes, most significant first, of a number whose bit 0 is the least significant. -/
def wordBytes : Nat → Nat → List Byte
  | 0, _ => []
  | n + 1, w => BitVec.ofNat 8 (w / 256 ^ n) :: wordBytes n w

/-- How many bytes a table row's word has: 1 (OPID), 2 (FRKEY, SLOT16) or 4 (HDR32). -/
def tableWordSize (nbits : Nat) : Nat :=
  if nbits ≤ 8 then 1 else if nbits ≤ 16 then 2 else 4

/-- The word of a table row as bytes. -/
def tableWord (nbits w : Nat) : List Byte := wordBytes (tableWordSize nbits) w

/-- The operation this decoder reads from a table word, its typed operands at their defaults. -/
def decodeTableWord (nbits w : Nat) : Option Instr :=
  match decode (tableWord nbits w) {} with
  | .ok i => some i
  | .error _ => none

end Sys2Proof
end

