-- ==== Sys2Proof/Machine/Fetch.lean ====
section
/-! DEFINITION. What a step runs next, and how a table word is placed so that the next step runs it. The block fetches no
instructions: the framer state and the next input byte select a transition (10_state.md R28, 30_encoding.md R72), and an
operation may be asked for through the operation port (notes/assumptions/3.md). -/

namespace Sys2Proof.Machine

/-- What a step finds to do. -/
inductive Fetched where
  /-- No byte and no call: the worker is blocked on the byte source (R12). -/
  | blocked
  /-- A word that decodes to nothing. -/
  | rejected (e : DecodeError)
  /-- An operation, and the state it runs in: the byte is consumed, or the call is taken. -/
  | run (i : Instr) (s : State)

/-- A pending call first; else the next byte of the stream, through its key (R72); else nothing. -/
def fetch (s : State) : Fetched :=
  match s.call with
  | some c =>
    match decode c.word c.args with
    | .ok i => .run i (s.setCall none)
    | .error e => .rejected e
  | none =>
    match s.input with
    | [] => .blocked
    | b :: rest =>
      match decodeKey (framerKey s.fs b) with
      | some i => .run i (s.setInput rest)
      | none => .rejected .illegalFramerState

/-- How a step stops on a word that decodes to nothing (R12, R21, R81). -/
def rejectAnswer : DecodeError → Answer
  | .illegalFramerState => .fault .illegalFramerState
  | .reservedSlotDescriptor => .refused .reservedSlotDescriptor
  | .unknownOperation => .refused .unknownOperation
  | .unknownWordLength => .refused .unknownWordLength

/-- Place a table word where the next step finds it. A framer key is the framer state and the next input byte; every other
word, and a key whose state code names no state, goes to the operation port with its operands at their defaults. -/
def placeWord (s : State) (nbits w : Nat) : State :=
  let onPort := s.setCall (some ⟨tableWord nbits w, {}⟩)
  if tableWordSize nbits = 2 ∧ w < 0x400 then
    match framerStateOf (BitVec.ofNat 2 (w / 256)) with
    | some fs => ((s.setCall none).setFs fs).setInput (BitVec.ofNat 8 w :: s.input)
    | none => onPort
  else onPort

end Sys2Proof.Machine
end

