-- ==== Sys2Proof/Machine/Step.lean ====
section
/-! DEFINITION. One step of the worker (00_scope.md R3, 40_framer.md R100). -/

namespace Sys2Proof.Machine

/-- One step: one input byte with everything it causes, or one called operation, or the wait for a byte, in which the
state stays as it is (R3, R12, R250). -/
def step (s : State) : Host.Outcome State Fault Refusal :=
  match fetch s with
  | .blocked => .next s
  | .rejected e => rejectAnswer e
  | .run i s' => exec i s'

/-- `s` with a table word placed so that the next step fetches and runs it. -/
def State.withFetchWord (s : State) (nbits w : Nat) : State := placeWord s nbits w

end Sys2Proof.Machine
end

