-- ==== Sys2Proof/Safety.lean ====
section
/-! DEFINITION. The terms in which claims are made: the invariant of a safe run, the property of the checksum table that
R136 names, the pure reading of the pipeline (R150), what the environment sees, and the byte accounting of R111. -/

namespace Sys2Proof.Machine

/-! ### The invariant -/

/-- The canonical form of the machine's one writable memory: the buffer never holds more than `BUF_CAP` bytes (R22, R64).
A list has no gaps and no repeats, so nothing else can be wrong with it (notes/assumptions/24.md). -/
def Memory.wf (cap : Option Nat) (buf : List Byte) : Bool :=
  match cap with
  | none => true
  | some n => decide (buf.length ≤ n)

/-- The entry index `k` names an entry of the catalog. -/
def indexWf (catalog : List Entry) (k : Nat) : Bool := decide (k < catalog.length)

/-- What R230 says of the `info` of each diagnostic kind, as far as it holds whoever runs the operation that raises it. -/
def diagWf (catalog : List Entry) (kind : DiagKind) (info : List Nat) : Bool :=
  match kind, info with
  | .malformedMarker, [b] => decide (0 < b ∧ b < 255)
  | .tooShort, [n] => decide (n < 6)
  | .badChecksum, [computed, received] => decide (computed < 256 ∧ received < 256 ∧ computed ≠ received)
  | .unknownType, [typ] => decide (typ < 256) && catalog.all fun e => e.id.toNat != typ
  | .lengthMismatch, [k, plen, expLen] =>
    decide (plen ≠ expLen) && (catalog[k]?.map (·.expLen) == some expLen)
  | .layoutMismatch, [k, _, width] => catalog[k]?.map (fun e => layoutWidth e.layout) == some width
  | .parityGlitch, [x] => decide (0 < x ∧ x < 256)
  | .requestSkipped, [src, dst, typ, ofs] => decide (src < 256 ∧ dst < 128 ∧ typ < 256 ∧ ofs < 256)
  | _, _ => false

/-- A legal event (R11, R230). -/
def eventWf (catalog : List Entry) : Event → Bool
  | .telegram _ => true
  | .diag kind info => diagWf catalog kind info
  | .raw k _ _ _ => indexWf catalog k

/-- The invariant every step keeps: the buffer respects its capacity, the selected index names an entry, and every event
of the trace is legal. -/
def State.Inv (s : State) : Prop :=
  Memory.wf s.cfg.bufCap s.buf = true ∧ (∀ k, s.k = some k → indexWf s.cfg.catalog k = true) ∧
    ∀ e ∈ s.trace, eventWf s.cfg.catalog e = true

/-! ### The checksum table -/

/-- `Injective(CK_TABLE)`, the property R136 names; the parameter's type does not have it. -/
def TableInjective (t : CkTable) : Prop := ∀ a b : Byte, t.get a = t.get b → a = b

/-! ### The pipeline as a function of the telegram and the tables (R150, R162, R163) -/

/-- The fields of a layout read from offset `c` on, by the widths of R190. -/
def fieldsFrom (p : List Byte) : Nat → Layout → List RawVal
  | _, [] => []
  | c, sl :: rest => slotFields sl p c ++ fieldsFrom p (c + sl.width) rest

/-- The header of a telegram of 6 or more bytes (R74, R75). -/
def telegramHeader (t : Telegram) : Header := headerOfBytes (byteAt t 0) (byteAt t 1) (byteAt t 2) (byteAt t 3)

/-- The warning of step 7, as the events it gives (R158). -/
def lengthEvents (k plen : Nat) (e : Entry) : List Event :=
  if plen = e.expLen then [] else [.diag .lengthMismatch [k, plen, e.expLen]]

/-- Steps 7 to 10 with entry `e` at index `k` (R158 to R160). -/
def decodeResult (k : Nat) (e : Entry) (t : Telegram) : List Event × DpOutcome :=
  let plen := t.length - 5
  let p := payload t
  if layoutWidth e.layout ≤ p.length then
    (lengthEvents k plen e ++ [.raw k (telegramHeader t) (fieldsFrom p 0 e.layout) (decide (plen = e.expLen))], .decoded)
  else
    (lengthEvents k plen e ++ [.diag .layoutMismatch [k, plen, layoutWidth e.layout]], .layoutMismatch)

/-- The events and the outcome of `DP.RUN` for a telegram (R150). -/
def pipelineResult (tbl : CkTable) (catalog : List Entry) (t : Telegram) : List Event × DpOutcome :=
  let h := telegramHeader t
  let computed := ckCompute tbl t.dropLast
  let received := byteAt t (t.length - 1)
  if t.length = 1 then ([], .poll)
  else if t.length < 6 then ([.diag .tooShort [t.length]], .tooShort)
  else if h.rq = 1 then
    ([.diag .requestSkipped [h.src.toNat, h.dst.toNat, h.typ.toNat, h.ofs.toNat]], .request)
  else if computed ≠ received then ([.diag .badChecksum [computed.toNat, received.toNat]], .badChecksum)
  else
    match catalog.findIdx? fun e => e.id == h.typ with
    | none => ([.diag .unknownType [h.typ.toNat]], .unknownType)
    | some k =>
      match catalog[k]? with
      | none => ([.diag .unknownType [h.typ.toNat]], .unknownType)
      | some e => decodeResult k e t

/-! ### What the environment sees -/

/-- The two states differ at most in registers that are transient (R20, R34) or the model's own result latch. -/
def State.sameVisible (s t : State) : Prop :=
  s.cfg = t.cfg ∧ s.input = t.input ∧ s.call = t.call ∧ s.trace = t.trace ∧ s.fs = t.fs ∧ s.buf = t.buf

/-! ### Byte accounting (R111, 95_test_vectors.md) -/

/-- The number of bytes in the telegrams of a trace. -/
def telegramBytes : List Event → Nat
  | [] => 0
  | .telegram t :: rest => t.length + telegramBytes rest
  | .diag _ _ :: rest => telegramBytes rest
  | .raw _ _ _ _ :: rest => telegramBytes rest

/-- The bytes of the marker pending in `FS`. -/
def pendingBytes : FState → Nat
  | .normal => 0
  | .markSeen => 1
  | .markZero => 2

/-- The bytes a sequence discards, counted at the byte that completes it: literal 1, parity mark 2, break 3, malformed
marker 2. -/
def discardedBytes (fs : FState) (b : Byte) : Nat :=
  match fs with
  | .normal => 0
  | .markSeen => if b = zeroByte then 0 else if b = markerByte then 1 else 2
  | .markZero => if b = zeroByte then 3 else 2

/-- The bytes held in telegrams, in the buffer and in a pending marker. -/
def State.accounted (s : State) : Nat := telegramBytes s.trace + s.buf.length + pendingBytes s.fs

/-! ### Runs of steps, runs of slots, kinds of fields -/

/-- `n` steps, stopping at the first that answers no next state. -/
def runSteps : Nat → State → Answer
  | 0, s => .next s
  | n + 1, s =>
    match step s with
    | .next t => runSteps n t
    | .fault r => .fault r
    | .refused r => .refused r

/-- The slot operations of a layout run one by one, first to last. -/
def runSlots : Layout → State → Answer
  | [], s => .next s
  | sl :: rest, s =>
    match exec (slotInstr sl) s with
    | .next t => runSlots rest t
    | .fault r => .fault r
    | .refused r => .refused r

/-- The slot a field came from: its kind, and for a byte string its length (R192). -/
def fieldSlot : RawVal → Slot
  | .u8 _ => .u8
  | .s8 _ => .s8
  | .u16 _ => .u16
  | .s16 _ => .s16
  | .str bs => .str bs.length

/-- A slot that gives a field (R192). -/
def givesField : Slot → Bool
  | .skip _ => false
  | .u8 | .s8 | .u16 | .s16 | .str _ => true

/-- An event of kind `EV_RAW`. -/
def isRaw : Event → Bool
  | .raw _ _ _ _ => true
  | .telegram _ | .diag _ _ => false

end Sys2Proof.Machine
end

