-- ==== Sys2Proof/Certificates/Slice0/Obligations.lean ====
section
/-! DEFINITION. The statements for the provers. A returned value stands in the result latch `res`, which is the model's own
(notes/assumptions/5.md): a statement with a clause about `res` is derived, not stated. -/

open Sys2Proof Sys2Proof.Machine

/-! ### The step -/

/-- What a step does: it consumes one byte and runs the transition its key selects (10_state.md R28, 30_encoding.md R72), which
is `FR.STEP` of that byte (40_framer.md R100), or takes a pending call and runs the operation its word decodes to, or waits
(R12, R250). A word that decodes to nothing stops by name. The operation port is the model's own (notes/assumptions/3.md). -/
def Obligations.StepRunsTheDecodedOperation : Prop :=
  (∀ (s : State) (b : Byte) (rest : List Byte) (i : Instr), s.call = none → s.input = b :: rest →
    decodeKey (framerKey s.fs b) = some i → step s = exec i { s with input := rest }) ∧
  (∀ (s : State) (b : Byte) (rest : List Byte), s.call = none → s.input = b :: rest →
    step s = exec (.frStep b) { s with input := rest }) ∧
  (∀ (s : State) (c : Call) (i : Instr), s.call = some c → decode c.word c.args = .ok i →
    step s = exec i { s with call := none }) ∧
  (∀ s : State, s.call = none → s.input = [] → step s = .next s) ∧
  (∀ (s : State) (c : Call), s.call = some c →
    (decode c.word c.args = .error .illegalFramerState → step s = .fault .illegalFramerState) ∧
    (decode c.word c.args = .error .reservedSlotDescriptor → step s = .refused .reservedSlotDescriptor) ∧
    (decode c.word c.args = .error .unknownOperation → step s = .refused .unknownOperation) ∧
    (decode c.word c.args = .error .unknownWordLength → step s = .refused .unknownWordLength))

/-- `FR.STEP` (R100): identifier `0x00`; the one transition that applies to the state and the byte; total with `BUF_CAP`
unbounded; no byte but its own is looked at or consumed; the next state and the events are a function of `(FS, BUF, b)` and
the tables. -/
def Obligations.FrStepTakesTheOneTransition : Prop :=
  (∀ a : Args, ∃ b, decode [0x00] a = .ok (.frStep b)) ∧
  (∀ (s : State) (b : Byte),
    exec (.frStep b) s =
      match s.fs with
      | .normal => if b = 0xFF then exec .frNMark s else exec (.frNData b) s
      | .markSeen => if b = 0x00 then exec .frSZero s else if b = 0xFF then exec .frSLit s else exec (.frSBad b) s
      | .markZero => if b = 0x00 then exec .frZBreak s else exec (.frZPerr b) s) ∧
  (∀ (s : State) (b : Byte), s.cfg.bufCap = none → ∃ t, exec (.frStep b) s = .next t) ∧
  (∀ (s s' : State) (b : Byte), s.fs = s'.fs → s.buf = s'.buf → s.cfg.ckTable = s'.cfg.ckTable →
    s.cfg.catalog = s'.cfg.catalog → s.cfg.bufCap = s'.cfg.bufCap →
    (∀ t, exec (.frStep b) s = .next t → ∃ t' evs, exec (.frStep b) s' = .next t' ∧ t'.fs = t.fs ∧ t'.buf = t.buf ∧
      t.trace = s.trace ++ evs ∧ t'.trace = s'.trace ++ evs ∧ t.input = s.input ∧ t'.input = s'.input) ∧
    (∀ r, exec (.frStep b) s = .fault r → exec (.frStep b) s' = .fault r) ∧
    ∀ r, exec (.frStep b) s ≠ .refused r)

/-- The key table (R72): every key of a framer state and a byte selects one transition, the keys with code 3 select none, and
no two rows of one priority match one key. -/
def Obligations.KeyTableIsTotalAndUnambiguous : Prop :=
  (∀ (fs : FState) (b : Byte), ∃ i, decodeKey (framerKey fs b) = some i ∧ i.wf = true) ∧
  (∀ key : BitVec 10, 0x300 ≤ key.toNat → decodeKey key = none) ∧
  keyTable.Pairwise fun r r' => r.priority = r'.priority → ∀ key : BitVec 10, ¬(r.selects key = true ∧ r'.selects key = true)

/-- A byte step stops only on an append to a full buffer (R108, R239): a fault is `BufferOverflow`, and the transition its key
selects is one of the three that append. Those three fault on a full buffer; the other four answer a next state whatever the
buffer holds. No call is pending (notes/assumptions/3.md). -/
def Obligations.ByteStepStopsOnlyOnAFullBuffer : Prop :=
  ∀ s : State, s.call = none →
    (s.cfg.bufCap = none → ∃ t, step s = .next t) ∧
    (s.cfg.bufCap ≠ some s.buf.length → ∃ t, step s = .next t) ∧
    (∀ r, step s = .fault r → r = .bufferOverflow ∧ s.cfg.bufCap = some s.buf.length ∧
      ∃ b rest i, s.input = b :: rest ∧ decodeKey (framerKey s.fs b) = some i ∧
        (i = .frNData b ∨ i = .frSLit ∨ i = .frZPerr b)) ∧
    (∀ b rest i, s.input = b :: rest → decodeKey (framerKey s.fs b) = some i →
      (i = .frNMark ∨ i = .frSZero ∨ i = .frSBad b ∨ i = .frZBreak → ∃ t, step s = .next t) ∧
      (i = .frNData b ∨ i = .frSLit ∨ i = .frZPerr b → s.cfg.bufCap = some s.buf.length →
        step s = .fault .bufferOverflow)) ∧
    (∀ r, step s ≠ .refused r)

/-! ### The framer (40_framer.md) -/

/-- `FR.N_MARK` (R101). -/
def Obligations.MarkerInNormalIsHeld : Prop :=
  (∀ key : BitVec 10, decodeKey key = some .frNMark ↔ key &&& 0x3FF = 0x0FF) ∧
  ∀ s : State, exec .frNMark s = .next { s with fs := .markSeen }

/-- `FR.N_DATA(b)` (R102). -/
def Obligations.DataByteInNormalIsAppended : Prop :=
  (∀ (key : BitVec 10) (b : Byte), decodeKey key = some (.frNData b) ↔
    key &&& 0x300 = 0x000 ∧ key &&& 0x3FF ≠ 0x0FF ∧ b = key.extractLsb' 0 8) ∧
  (∀ (s : State) (b : Byte), b ≠ 0xFF → s.cfg.bufCap ≠ some s.buf.length →
    exec (.frNData b) s = .next { s with buf := s.buf ++ [b], fs := .normal }) ∧
  (∀ (s : State) (b : Byte), b ≠ 0xFF → s.cfg.bufCap = some s.buf.length →
    exec (.frNData b) s = .fault .bufferOverflow)

/-- `FR.S_ZERO` (R103). -/
def Obligations.ZeroAfterMarkerIsHeld : Prop :=
  (∀ key : BitVec 10, decodeKey key = some .frSZero ↔ key &&& 0x3FF = 0x100) ∧
  ∀ s : State, exec .frSZero s = .next { s with fs := .markZero }

/-- `FR.S_LIT` (R104). -/
def Obligations.DoubledMarkerAppendsOneLiteral : Prop :=
  (∀ key : BitVec 10, decodeKey key = some .frSLit ↔ key &&& 0x3FF = 0x1FF) ∧
  (∀ s : State, s.cfg.bufCap ≠ some s.buf.length →
    exec .frSLit s = .next { s with buf := s.buf ++ [0xFF], fs := .normal }) ∧
  (∀ s : State, s.cfg.bufCap = some s.buf.length → exec .frSLit s = .fault .bufferOverflow)

/-- `FR.S_BAD(b)` (R105). -/
def Obligations.MalformedMarkerIsDiscarded : Prop :=
  (∀ (key : BitVec 10) (b : Byte), decodeKey key = some (.frSBad b) ↔
    key &&& 0x300 = 0x100 ∧ key &&& 0x3FF ≠ 0x100 ∧ key &&& 0x3FF ≠ 0x1FF ∧ b = key.extractLsb' 0 8) ∧
  ∀ (s : State) (b : Byte), b ≠ 0x00 → b ≠ 0xFF →
    exec (.frSBad b) s = .next { s with trace := s.trace ++ [.diag .malformedMarker [b.toNat]], fs := .normal }

/-- `FR.Z_BREAK` (R106): the buffer, of any length, is handed over, emitted and cleared, and `DP.RUN` runs on it within the
same step. That the outcome is not kept is the model's reading of R162 (notes/assumptions/5.md); the empty buffer is the
spec's decision D9. -/
def Obligations.BreakEmitsTheBufferAndRunsThePipeline : Prop :=
  (∀ key : BitVec 10, decodeKey key = some .frZBreak ↔ key &&& 0x3FF = 0x200) ∧
  ∀ s : State, ∃ t,
    exec .dpRun { s with tg := s.buf, buf := [], fs := .normal, trace := s.trace ++ [.telegram s.buf] } = .next t ∧
    exec .frZBreak s = .next { t with res := s.res } ∧ t.fs = .normal ∧ t.buf = []

/-- `FR.Z_PERR(b)` (R107), with the informational event of decision D10. -/
def Obligations.ParityMarkedByteIsAppended : Prop :=
  (∀ (key : BitVec 10) (b : Byte), decodeKey key = some (.frZPerr b) ↔
    key &&& 0x300 = 0x200 ∧ key &&& 0x3FF ≠ 0x200 ∧ b = key.extractLsb' 0 8) ∧
  (∀ (s : State) (b : Byte), b ≠ 0x00 → s.cfg.bufCap ≠ some s.buf.length →
    exec (.frZPerr b) s =
      .next { s with buf := s.buf ++ [b], fs := .normal, trace := s.trace ++ [.diag .parityGlitch [b.toNat]] }) ∧
  (∀ (s : State) (b : Byte), b ≠ 0x00 → s.cfg.bufCap = some s.buf.length →
    exec (.frZPerr b) s = .fault .bufferOverflow)

/-- The round trip of R110: the stream that carries a telegram gives exactly that telegram and the events of its decoding,
and leaves the framer as it was. The events are those of `pipelineResult` (R150). -/
def Obligations.StuffedTelegramIsFramedWhole : Prop :=
  ∀ (s : State) (t : Telegram) (rest : List Byte), s.call = none → s.fs = .normal → s.buf = [] →
    s.input = stuff t ++ rest → (∀ cap, s.cfg.bufCap = some cap → t.length ≤ cap) →
    ∃ u, runSteps (stuff t).length s = .next u ∧ u.fs = .normal ∧ u.buf = [] ∧ u.input = rest ∧
      u.trace = s.trace ++ .telegram t :: (pipelineResult s.cfg.ckTable s.cfg.catalog t).1

/-- Byte accounting (R111 and the properties of 95_test_vectors.md): every byte consumed stands in an emitted telegram, in
the buffer or in a pending marker, or is one of the bytes a sequence discards. -/
def Obligations.ConsumedBytesAreAccountedFor : Prop :=
  ∀ (s t : State) (b : Byte) (rest : List Byte), s.call = none → s.input = b :: rest → step s = .next t →
    t.input = rest ∧ t.accounted + discardedBytes s.fs b = s.accounted + 1

/-- The events of a byte step (95_test_vectors.md, the properties): the trace only grows, at most one `EV_RAW` is added, and
where one is, the step's first event is an `EV_TELEGRAM`. -/
def Obligations.RawEventFollowsItsTelegram : Prop :=
  ∀ s t : State, s.call = none → step s = .next t →
    ∃ evs, t.trace = s.trace ++ evs ∧ evs.countP isRaw ≤ 1 ∧
      (∀ e ∈ evs, isRaw e = true → ∃ tg more, evs = .telegram tg :: more)

/-! ### The checksum (41_checksum.md) -/

/-- `CK.INIT` (R130). -/
def Obligations.ChecksumStartsAtZero : Prop :=
  (∀ a : Args, decode [0x10] a = .ok .ckInit) ∧ ∀ s : State, exec .ckInit s = .next { s with acc := 0 }

/-- `CK.UPDATE(b)` (R131): identifier `0x11`; the lookup is by the old accumulator, the byte is XORed in after. -/
def Obligations.UpdateLooksUpTheOldAccumulator : Prop :=
  (∀ a : Args, ∃ b, decode [0x11] a = .ok (.ckUpdate b)) ∧
  ∀ (s : State) (b : Byte), exec (.ckUpdate b) s = .next { s with acc := s.cfg.ckTable.get s.acc ^^^ b }

/-- `CK.COMPUTE(bs)` (R132): the fold, through its two equations; the value is in `ACC` and in the result latch
(notes/assumptions/5.md). -/
def Obligations.ComputeIsTheLeftFold : Prop :=
  ∃ c : CkTable → List Byte → Byte, (∀ t, c t [] = 0) ∧ (∀ t bs b, c t (bs ++ [b]) = t.get (c t bs) ^^^ b) ∧
    ∀ (s : State) (bs : List Byte),
      exec (.ckCompute bs) s = .next { s with acc := c s.cfg.ckTable bs, res := .byte (c s.cfg.ckTable bs) }

/-- `CK.CHECK` (R133): every byte but the last is summed, and the sum is compared with the last; the verdict is in the result
latch (notes/assumptions/5.md). -/
def Obligations.CheckComparesTheSumWithTheLastByte : Prop :=
  ∀ s : State, 2 ≤ s.tg.length →
    exec .ckCheck s = .next { s with
      acc := ckCompute s.cfg.ckTable s.tg.dropLast
      res := .verdict (if s.tg.getLast? = some (ckCompute s.cfg.ckTable s.tg.dropLast) then .valid else .invalid) }

/-- R136: with an injective table a change confined to one non-final byte of a valid telegram is always detected. -/
def Obligations.InjectiveTableDetectsAOneByteChange : Prop :=
  ∀ (tbl : CkTable) (xs ys : List Byte) (a b last : Byte), TableInjective tbl → a ≠ b →
    ckVerdict tbl (xs ++ a :: ys ++ [last]) = .valid → ckVerdict tbl (xs ++ b :: ys ++ [last]) = .invalid

/-- R136: with a table that is not injective some such change passes. -/
def Obligations.NonInjectiveTableMissesAOneByteChange : Prop :=
  ∀ tbl : CkTable, ¬TableInjective tbl →
    ∃ a b c last : Byte, a ≠ b ∧ ckVerdict tbl [a, c, last] = .valid ∧ ckVerdict tbl [b, c, last] = .valid

/-- 95_test_vectors.md section 2.2: whatever the table, exactly one final byte makes a telegram valid. -/
def Obligations.ExactlyOneFinalByteIsValid : Prop :=
  ∀ (tbl : CkTable) (bs : List Byte), bs ≠ [] →
    ∃ x : Byte, ckVerdict tbl (bs ++ [x]) = .valid ∧ ∀ y : Byte, y ≠ x → ckVerdict tbl (bs ++ [y]) = .invalid

/-! ### The pipeline (42_decoder_pipeline.md) -/

/-- `HD.PARSE` (R153) on a telegram of 6 or more bytes. -/
def Obligations.HeaderParseFillsTheRegisters : Prop :=
  (∀ a : Args, decode [0x23] a = .ok .hdParse) ∧
  ∀ (s : State) (b0 b1 b2 b3 : Byte) (rest : List Byte), s.tg = b0 :: b1 :: b2 :: b3 :: rest → 2 ≤ rest.length →
    ∃ (rq : BitVec 1) (dst : BitVec 7), (rq = 1 ↔ b1.getLsbD 7 = true) ∧ dst.setWidth 8 = b1 &&& 0x7F ∧
      exec .hdParse s = .next { s with
        hdr := { src := b0, dstraw := b1, rq := rq, dst := dst, typ := b2, ofs := b3, plen := s.tg.length - 5 } }

/-- `DP.POLL` (R151): nothing is emitted; the outcome is in the result latch (notes/assumptions/18.md). -/
def Obligations.PollIsSilent : Prop :=
  ∀ s : State,
    (s.tg.length = 1 → exec .dpPoll s = .next { s with res := .pipeline (some .poll) }) ∧
    (s.tg.length ≠ 1 → exec .dpPoll s = .next { s with res := .pipeline none })

/-- `DP.SHORT` (R152); the outcome is in the result latch (notes/assumptions/18.md). -/
def Obligations.ShortTelegramIsRejected : Prop :=
  ∀ s : State,
    (s.tg.length < 6 → exec .dpShort s = .next { s with
      trace := s.trace ++ [.diag .tooShort [s.tg.length]], res := .pipeline (some .tooShort) }) ∧
    (6 ≤ s.tg.length → exec .dpShort s = .next { s with res := .pipeline none })

/-- `DP.REQ` (R154); the outcome is in the result latch (notes/assumptions/18.md). -/
def Obligations.RequestIsSkipped : Prop :=
  ∀ s : State,
    (s.hdr.rq = 1 → exec .dpReq s = .next { s with
      trace := s.trace ++
        [.diag .requestSkipped [s.hdr.src.toNat, s.hdr.dst.toNat, s.hdr.typ.toNat, s.hdr.ofs.toNat]]
      res := .pipeline (some .request) }) ∧
    (s.hdr.rq = 0 → exec .dpReq s = .next { s with res := .pipeline none })

/-- `DP.CKSUM` (R155); the outcome is in the result latch (notes/assumptions/18.md). -/
def Obligations.BadChecksumDropsTheTelegram : Prop :=
  ∀ (s : State) (bs : List Byte) (last : Byte), s.tg = bs ++ [last] → bs ≠ [] →
    (ckCompute s.cfg.ckTable bs = last → exec .dpCksum s = .next { s with acc := last, res := .pipeline none }) ∧
    (ckCompute s.cfg.ckTable bs ≠ last → exec .dpCksum s = .next { s with
      acc := ckCompute s.cfg.ckTable bs
      trace := s.trace ++ [.diag .badChecksum [(ckCompute s.cfg.ckTable bs).toNat, last.toNat]]
      res := .pipeline (some .badChecksum) })

/-- `CAT.LOOKUP` (R156) with the tie-break of R157: the first entry whose id is `TYP`; the index is in the register `k`
(notes/assumptions/6.md), the outcome in the result latch (notes/assumptions/18.md). -/
def Obligations.LookupTakesTheFirstMatch : Prop :=
  ∀ s : State,
    (∀ (k : Nat) (e : Entry), s.cfg.catalog[k]? = some e → e.id = s.hdr.typ →
      (∀ (j : Nat) (e' : Entry), j < k → s.cfg.catalog[j]? = some e' → e'.id ≠ s.hdr.typ) →
      exec .catLookup s = .next { s with k := some k, res := .pipeline none }) ∧
    ((∀ e ∈ s.cfg.catalog, e.id ≠ s.hdr.typ) →
      exec .catLookup s = .next { s with
        k := none
        trace := s.trace ++ [.diag .unknownType [s.hdr.typ.toNat]]
        res := .pipeline (some .unknownType) })

/-- `DP.LEN` (R158) with an entry selected: a warning, never a return (notes/assumptions/18.md for the latch). -/
def Obligations.LengthMismatchOnlyWarns : Prop :=
  ∀ (s : State) (k : Nat) (e : Entry), s.k = some k → s.cfg.catalog[k]? = some e →
    (s.hdr.plen = e.expLen → exec .dpLen s = .next { s with lenwarn := false, res := .pipeline none }) ∧
    (s.hdr.plen ≠ e.expLen → exec .dpLen s = .next { s with
      lenwarn := true
      trace := s.trace ++ [.diag .lengthMismatch [k, s.hdr.plen, e.expLen]]
      res := .pipeline none })

/-- `DP.UNPACK` (R159) with an entry selected: all fields or none (notes/assumptions/17.md, 18.md). -/
def Obligations.LayoutIsAppliedWholeOrNotAtAll : Prop :=
  ∀ (s : State) (k : Nat) (e : Entry) (p : List Byte), s.k = some k → s.cfg.catalog[k]? = some e →
    p = (s.tg.drop 4).dropLast →
    (layoutWidth e.layout ≤ p.length → exec .dpUnpack s = .next { s with
      cur := layoutWidth e.layout, f := fieldsFrom p 0 e.layout, res := .pipeline none }) ∧
    (p.length < layoutWidth e.layout → ∃ c, exec .dpUnpack s = .next { s with
      cur := c
      f := []
      trace := s.trace ++ [.diag .layoutMismatch [k, s.hdr.plen, layoutWidth e.layout]]
      res := .pipeline (some .layoutMismatch) })

/-- `DP.HANDOFF` (R160); the outcome is in the result latch (notes/assumptions/18.md). -/
def Obligations.HandoffEmitsTheRawFields : Prop :=
  ∀ (s : State) (k : Nat), s.k = some k →
    exec .dpHandoff s = .next { s with
      trace := s.trace ++ [.raw k ⟨s.hdr.src, s.hdr.rq, s.hdr.dst, s.hdr.typ, s.hdr.ofs⟩ s.f (!s.lenwarn)]
      res := .pipeline (some .decoded) }

/-- `DP.RUN` (R150): for every telegram the events and the outcome are those of the steps in their order, as
`pipelineResult` writes them out, and the framer is left alone. The outcome is in the result latch (notes/assumptions/5.md). -/
def Obligations.PipelineFollowsTheOrderOfItsSteps : Prop :=
  ∀ s : State, ∃ t, exec .dpRun s = .next t ∧
    t.trace = s.trace ++ (pipelineResult s.cfg.ckTable s.cfg.catalog s.tg).1 ∧
    t.res = .pipeline (some (pipelineResult s.cfg.ckTable s.cfg.catalog s.tg).2) ∧
    t.fs = s.fs ∧ t.buf = s.buf ∧ t.tg = s.tg ∧ t.cfg = s.cfg ∧ t.input = s.input ∧ t.call = s.call

/-- R163: the events and the outcome (R162) of `DP.RUN` for a telegram are the same every time, whatever else the state holds.
The outcome is in the result latch (notes/assumptions/5.md). -/
def Obligations.PipelineEventsDependOnTelegramAndTables : Prop :=
  ∀ s s' : State, s.tg = s'.tg → s.cfg.ckTable = s'.cfg.ckTable → s.cfg.catalog = s'.cfg.catalog →
    ∃ t t' evs, exec .dpRun s = .next t ∧ exec .dpRun s' = .next t' ∧
      t.trace = s.trace ++ evs ∧ t'.trace = s'.trace ++ evs ∧ t.res = t'.res

/-- R166: two valid responses with the same type and the same payload have the same outcome, the same entry, the same
warning and the same fields, whatever their source, destination and offset. -/
def Obligations.AddressesAndOffsetDecideNothing : Prop :=
  ∀ (s t t' : State) (a0 a1 a3 b0 b1 b3 typ : Byte) (p : List Byte) (ca cb : Byte), p ≠ [] →
    a1.getLsbD 7 = false → b1.getLsbD 7 = false →
    ckVerdict s.cfg.ckTable ([a0, a1, typ, a3] ++ p ++ [ca]) = .valid →
    ckVerdict s.cfg.ckTable ([b0, b1, typ, b3] ++ p ++ [cb]) = .valid →
    exec .dpRun { s with tg := [a0, a1, typ, a3] ++ p ++ [ca] } = .next t →
    exec .dpRun { s with tg := [b0, b1, typ, b3] ++ p ++ [cb] } = .next t' →
    t.res = t'.res ∧ t.k = t'.k ∧ t.lenwarn = t'.lenwarn ∧ t.f = t'.f

/-- R236: a `LayoutMismatch` is always preceded, for the same telegram, by a `LengthMismatch` of the same entry and length: the
entry of the telegram's type, and the telegram's `PLEN`. The outcome is in the result latch (notes/assumptions/5.md). -/
def Obligations.LayoutMismatchFollowsLengthMismatch : Prop :=
  ∀ s t : State, exec .dpRun s = .next t → t.res = .pipeline (some .layoutMismatch) →
    ∃ (k plen : Nat) (e : Entry), plen = s.tg.length - 5 ∧ s.cfg.catalog[k]? = some e ∧ s.tg[2]? = some e.id ∧
      plen < e.expLen ∧
      t.trace = s.trace ++ [.diag .lengthMismatch [k, plen, e.expLen], .diag .layoutMismatch [k, plen, e.expLen]]

/-- `HD.HEADER` (R74, R75): the registers of the 32-bit pattern, and on a telegram that begins with that pattern the effect
of `HD.PARSE` (R85). That `PLEN` is left alone below 6 bytes is the model's choice (notes/assumptions/19.md). -/
def Obligations.HeaderPatternFillsTheRegisters : Prop :=
  ∀ (s : State) (h : Header),
    (∃ d : Byte, d.toNat = 128 * h.rq.toNat + h.dst.toNat ∧
      exec (.hdHeader h) s = .next { s with
        hdr := { src := h.src, dstraw := d, rq := h.rq, dst := h.dst, typ := h.typ, ofs := h.ofs,
                 plen := if s.tg.length < 6 then s.hdr.plen else s.tg.length - 5 } }) ∧
    (∀ rest : List Byte, s.tg = headerBytes h ++ rest → 2 ≤ rest.length → exec (.hdHeader h) s = exec .hdParse s)

/-! ### The unpacker (43_unpacker.md) -/

/-- `UP.U8` and `UP.S8` (R181, R182, R189) as one iteration of the loop of R180 (notes/assumptions/16.md). -/
def Obligations.EightBitSlotsReadOneByte : Prop :=
  ∀ (s : State) (v : Byte), ((s.tg.drop 4).dropLast)[s.cur]? = some v →
    exec .upU8 s = .next { s with f := s.f ++ [.u8 v], cur := s.cur + 1, res := .field (.u8 v) } ∧
    exec .upS8 s = .next { s with f := s.f ++ [.s8 v], cur := s.cur + 1, res := .field (.s8 v) } ∧
    fieldValue (.u8 v) = some (v.toNat : Int) ∧
    fieldValue (.s8 v) = some (if v.toNat < 128 then (v.toNat : Int) else (v.toNat : Int) - 256)

/-- `UP.U16` and `UP.S16` (R183, R184, R189, R52) as one iteration of the loop of R180 (notes/assumptions/16.md). -/
def Obligations.SixteenBitSlotsAreBigEndian : Prop :=
  ∀ (s : State) (hi lo : Byte), ((s.tg.drop 4).dropLast)[s.cur]? = some hi →
    ((s.tg.drop 4).dropLast)[s.cur + 1]? = some lo →
    ∃ w : Half, w.toNat = 256 * hi.toNat + lo.toNat ∧
      exec .upU16 s = .next { s with f := s.f ++ [.u16 w], cur := s.cur + 2, res := .field (.u16 w) } ∧
      exec .upS16 s = .next { s with f := s.f ++ [.s16 w], cur := s.cur + 2, res := .field (.s16 w) } ∧
      fieldValue (.u16 w) = some (w.toNat : Int) ∧
      fieldValue (.s16 w) = some (if w.toNat < 32768 then (w.toNat : Int) else (w.toNat : Int) - 65536)

/-- `UP.STR(n)` and `UP.SKIP(n)` (R185, R186) as one iteration of the loop of R180 (notes/assumptions/16.md). -/
def Obligations.StringKeepsItsBytesAndSkipNone : Prop :=
  ∀ (s : State) (n : Nat) (p : List Byte), p = (s.tg.drop 4).dropLast → s.cur + n ≤ p.length →
    exec (.upStr n) s = .next { s with
      f := s.f ++ [.str ((p.drop s.cur).take n)], cur := s.cur + n, res := .field (.str ((p.drop s.cur).take n)) } ∧
    exec (.upSkip n) s = .next { s with cur := s.cur + n }

/-- R187 for a slot run by itself: where its bytes do not all exist nothing is extracted and the fields so far are thrown
away (notes/assumptions/16.md, 17.md). -/
def Obligations.SlotWithoutItsBytesIsAMismatch : Prop :=
  ∀ (s : State) (sl : Slot), ((s.tg.drop 4).dropLast).length < s.cur + sl.width →
    exec (slotInstr sl) s = .next { s with f := [], res := .layoutMismatch }

/-- `UP.UNPACK` (R180) succeeds exactly when the layout is no wider than the payload (R187); the result is in the result
latch (notes/assumptions/5.md), and what a mismatch leaves in `CUR` is not said (notes/assumptions/17.md). -/
def Obligations.UnpackSucceedsExactlyWhenTheLayoutFits : Prop :=
  ∀ (s : State) (layout : Layout) (p : List Byte),
    (layoutWidth layout ≤ p.length → exec (.upUnpack layout p) s = .next { s with
      cur := layoutWidth layout, f := fieldsFrom p 0 layout, res := .fields (fieldsFrom p 0 layout) }) ∧
    (p.length < layoutWidth layout → ∃ c, exec (.upUnpack layout p) s = .next { s with
      cur := c, f := [], res := .layoutMismatch })

/-- R188: bytes beyond the layout's width are ignored. -/
def Obligations.SurplusPayloadIsIgnored : Prop :=
  ∀ (s : State) (layout : Layout) (p extra : List Byte), layoutWidth layout ≤ p.length →
    exec (.upUnpack layout (p ++ extra)) s = exec (.upUnpack layout p) s

/-- R192: the number of the fields and the kind of each are fixed by the layout alone. -/
def Obligations.FieldKindsAreFixedByTheLayout : Prop :=
  ∀ (s : State) (layout : Layout) (p : List Byte), layoutWidth layout ≤ p.length →
    ∃ t, exec (.upUnpack layout p) s = .next t ∧ t.f.map fieldSlot = layout.filter givesField

/-- R180: the slots of a layout run one by one from an empty field list give what `UP.UNPACK` gives, but for the result latch
(notes/assumptions/5.md, 16.md). -/
def Obligations.SlotsInOrderAreTheUnpackLoop : Prop :=
  ∀ (s : State) (layout : Layout), layoutWidth layout ≤ ((s.tg.drop 4).dropLast).length →
    ∃ t u, runSlots layout { s with cur := 0, f := [] } = .next t ∧
      exec (.upUnpack layout ((s.tg.drop 4).dropLast)) s = .next u ∧ { t with res := u.res } = u

/-! ### The post-extraction operators (44_field_postops.md); each value is in the result latch (notes/assumptions/5.md) -/

/-- `PX.BIT` (R210): true exactly when some bit of the mask is set in the pattern. -/
def Obligations.BitTestIsAnyBitOfTheMask : Prop :=
  ∀ (s : State) (v : RawVal) (mask pat w : Nat), fieldPattern v = some pat → fieldBits v = some w → mask < 2 ^ w →
    ∃ b : Bool, exec (.pxBit v mask) s = .next { s with res := .bool b } ∧
      (b = true ↔ ∃ i, i < w ∧ pat.testBit i = true ∧ mask.testBit i = true)

/-- `PX.WIDE32` (R211). -/
def Obligations.WideJoinsTheHighAndTheLowHalf : Prop :=
  ∀ (s : State) (high low : Half), ∃ v : BitVec 32, v.toNat = high.toNat * 65536 + low.toNat ∧
    exec (.pxWide32 (.u16 high) (.u16 low)) s = .next { s with res := .wide v }

/-- `PX.BITMAP` (R212): the ascending list of the indices of the set bits, under both bit orders and any base. -/
def Obligations.BitmapListsTheSetBits : Prop :=
  ∀ (s : State) (bs : List Byte), ∃ l : List Nat, exec (.pxBitmap bs) s = .next { s with res := .indices l } ∧
    l.Pairwise (· < ·) ∧
    ∀ n, n ∈ l ↔ ∃ (j q : Nat) (b : Byte), bs[j]? = some b ∧ q < 8 ∧ n = s.cfg.bitmapBase + 8 * j + q ∧
      b.getLsbD (if s.cfg.bitmapMsbFirst then 7 - q else q) = true

/-- `PX.SENT` (R213): the comparison is on the value as the slot typed it. -/
def Obligations.SentinelMapsToAbsent : Prop :=
  ∀ (s : State) (v : RawVal) (x sentinel : Int), fieldValue v = some x → sentinelInDomain v sentinel = true →
    (x = sentinel → exec (.pxSent v sentinel) s = .next { s with res := .sent .absent }) ∧
    (x ≠ sentinel → exec (.pxSent v sentinel) s = .next { s with res := .sent (.present v) })

/-- `PX.SCALE` (R214): the exact rational, no rounding. -/
def Obligations.ScaleIsExact : Prop :=
  ∀ (s : State) (v num den : Int), 0 < num → 0 < den →
    ∃ q : Rat, q * den = v * num ∧ exec (.pxScale v num den) s = .next { s with res := .ratio q }

/-- R215: `PX.SENT` comes first, on the raw value, and only a present value goes to `PX.SCALE`; the composition answers what
the two operations answer, their refusals (R213, R214, 93 U15) included. Each value is in the result latch
(notes/assumptions/5.md); a sentinel is absent whatever the scale (notes/assumptions/32.md). -/
def Obligations.SentinelComesBeforeScale : Prop :=
  (∀ (s : State) (v : RawVal) (x sentinel num den : Int), fieldValue v = some x → sentinelInDomain v sentinel = true →
    (x = sentinel →
      exec (.pxSent v sentinel) s = .next { s with res := .sent .absent } ∧
      sentThenScale v sentinel num den s = .next { s with res := .sent .absent }) ∧
    (x ≠ sentinel → 0 < num → 0 < den → ∃ q : Rat, q * den = x * num ∧
      exec (.pxSent v sentinel) s = .next { s with res := .sent (.present v) } ∧
      exec (.pxScale x num den) { s with res := .sent (.present v) } = .next { s with res := .ratio q } ∧
      sentThenScale v sentinel num den s = .next { s with res := .ratio q }) ∧
    (x ≠ sentinel → num ≤ 0 ∨ den ≤ 0 →
      exec (.pxScale x num den) { s with res := .sent (.present v) } = .refused .scaleOutsideDomain ∧
      sentThenScale v sentinel num den s = .refused .scaleOutsideDomain)) ∧
  ∀ (s : State) (v : RawVal) (sentinel num den : Int), sentinelInDomain v sentinel = false →
    exec (.pxSent v sentinel) s = .refused .sentinelOutsideDomain ∧
    sentThenScale v sentinel num den s = .refused .sentinelOutsideDomain

/-- The calls outside an operation's stated domain (R12, R102, R105, R107, R134, R153, R155, R158 to R160, R210, R211, R213,
R214): each is refused by its own name, in every state (notes/assumptions/15.md, 18.md, 21.md). -/
def Obligations.CallsOutsideTheDomainAreRefused : Prop :=
  ∀ s : State,
    exec (.frNData 0xFF) s = .refused .byteOutsideTransition ∧
    exec (.frSBad 0x00) s = .refused .byteOutsideTransition ∧
    exec (.frSBad 0xFF) s = .refused .byteOutsideTransition ∧
    exec (.frZPerr 0x00) s = .refused .byteOutsideTransition ∧
    (s.tg.length < 2 → exec .ckCheck s = .refused .telegramTooShortToCheck ∧
      exec .dpCksum s = .refused .telegramTooShortToCheck) ∧
    (s.tg.length < 6 → exec .hdParse s = .refused .telegramTooShortToParse) ∧
    (s.k = none → exec .dpLen s = .refused .noCatalogEntry ∧ exec .dpUnpack s = .refused .noCatalogEntry ∧
      exec .dpHandoff s = .refused .noCatalogEntry) ∧
    (∀ v mask, maskInDomain v mask = false → exec (.pxBit v mask) s = .refused .bitOutsideDomain) ∧
    (∀ v w, isU16 v = false ∨ isU16 w = false → exec (.pxWide32 v w) s = .refused .wideOutsideDomain) ∧
    (∀ v x, sentinelInDomain v x = false → exec (.pxSent v x) s = .refused .sentinelOutsideDomain) ∧
    (∀ v num den, num ≤ 0 ∨ den ≤ 0 → exec (.pxScale v num den) s = .refused .scaleOutsideDomain)

/-! ### Reset, the tables, the invariant, the transient registers -/

/-- `RESET` (R260): the framer and the trace are as after reset, the tables keep their values. The values of the transient
registers are the model's choice (notes/assumptions/8.md). -/
def Obligations.ResetClearsTheFramerAndTheTrace : Prop :=
  ∀ s : State, exec .reset s = .next { State.reset with cfg := s.cfg, input := s.input, call := s.call } ∧
    State.reset.fs = .normal ∧ State.reset.buf = [] ∧ State.reset.trace = []

/-- The state after reset (R34, R260): `FS`, `BUF` and the trace as the spec says, and the defaults of R6 for the buffer
capacity and the bitmap (notes/assumptions/11.md). -/
def Obligations.ResetStateIsTheSpecs : Prop :=
  State.reset.fs = .normal ∧ State.reset.buf = [] ∧ State.reset.trace = [] ∧ State.reset.cfg.bufCap = none ∧
    State.reset.cfg.bitmapMsbFirst = false ∧ State.reset.cfg.bitmapBase = 0

/-- R63 for the two tables, and the same for the three other parameters of R6, which the model holds beside them in `cfg`
(notes/assumptions/12.md): no operation and no step writes them. -/
def Obligations.TablesNeverChange : Prop :=
  (∀ (i : Instr) (s t : State), exec i s = .next t → t.cfg = s.cfg) ∧
  ∀ s t : State, step s = .next t → t.cfg = s.cfg

/-- The invariant holds at reset. -/
def Obligations.InvariantHoldsAtReset : Prop := State.reset.Inv

/-- Every step keeps the invariant: the buffer respects its capacity (R22, R64), the selected index names an entry, and
every event of the trace is legal (R230). -/
def Obligations.EveryStepKeepsTheInvariant : Prop :=
  ∀ s t : State, s.Inv → step s = .next t → t.Inv

/-- R20: the value of a transient register at the start of a byte step is never read. -/
def Obligations.TransientRegistersAreNeverRead : Prop :=
  ∀ s s' : State, s.sameVisible s' → s.call = none →
    (∀ t, step s = .next t → ∃ t', step s' = .next t' ∧ t.sameVisible t') ∧
    (∀ r, step s = .fault r → step s' = .fault r)

/-! ### Encodings (30_encoding.md) -/

/-- Decode and encode agree: the word and the typed operands the encoder gives a well-formed operation decode to it, with
every operand at every value its encoding admits (R72, R74, R80, R85). That typed operands travel beside an identifier is the
model's choice (notes/assumptions/4.md). -/
def Obligations.DecodeOfEncodeIsTheOperation : Prop :=
  ∀ i : Instr, i.wf = true → decode (encode i).word (encode i).args = .ok i

/-- The layout descriptors (R80, R81): a layout with counts in range survives, a descriptor has at most one slot, and every
slot's descriptor is the one it came from. -/
def Obligations.LayoutDescriptorsAgree : Prop :=
  (∀ layout : Layout, layoutWf layout = true → decodeLayout (encodeLayout layout) = some layout) ∧
  ∀ (d : Half) (sl : Slot), decodeSlot d = some sl → encodeSlot sl = d ∧ sl.countInRange = true

/-- Some words, bit by bit, of each format (R72, R74, R80, R85). The operands of `FR.STEP`, `CK.UPDATE` and `PX.SCALE` are the
typed operands beside the identifier, in the table word's case their defaults 0, 1, 1: the model's choice
(notes/assumptions/4.md). -/
def Obligations.SampleWordsDecode : Prop :=
  decodeTableWord 16 0x0FF = some .frNMark ∧ decodeTableWord 16 0x041 = some (.frNData 0x41) ∧
    decodeTableWord 16 0x105 = some (.frSBad 0x05) ∧ decodeTableWord 16 0x300 = none ∧
    decodeTableWord 16 0x7302 = some (.upStr 2) ∧ decodeTableWord 16 0x4202 = none ∧
    decodeTableWord 8 0x13 = some .ckCheck ∧ decodeTableWord 8 0x29 = some .dpHandoff ∧
    decodeTableWord 8 0x44 = some (.pxScale 0 1 1) ∧ decodeTableWord 8 0x7F = some .reset ∧
    decodeTableWord 32 0x0B881A00 = some (.hdHeader ⟨0x0B, 1, 0x08, 0x1A, 0x00⟩) ∧
    (∀ a : Args, decode [0x00] a = .ok (.frStep a.b)) ∧ ∀ a : Args, decode [0x11] a = .ok (.ckUpdate a.b)
end

