-- ==== Sys2Proof/Laws/Decode.lean ====
section
/-! SUPPORT. What the key table, the slot table and the operation table select. -/

namespace Sys2Proof

/-- The byte and the state code of a key are the ones it was made of. -/
@[simp] theorem keyByte_framerKey (fs : FState) (b : Byte) : keyByte (framerKey fs b) = b := by
  revert b; cases fs <;> decide

@[simp] theorem keyCode_framerKey (fs : FState) (b : Byte) : keyCode (framerKey fs b) = framerCode fs := by
  revert b; cases fs <;> decide

theorem decodeKey_normal (b : Byte) :
    decodeKey (framerKey .normal b) = some (if b = markerByte then .frNMark else .frNData b) := by
  revert b; decide

theorem decodeKey_markSeen (b : Byte) :
    decodeKey (framerKey .markSeen b) =
      some (if b = zeroByte then .frSZero else if b = markerByte then .frSLit else .frSBad b) := by
  revert b; decide

theorem decodeKey_markZero (b : Byte) :
    decodeKey (framerKey .markZero b) = some (if b = zeroByte then .frZBreak else .frZPerr b) := by
  revert b; decide

end Sys2Proof
end

