-- ==== Sys2Proof/Laws/State.lean ====
section
/-! SUPPORT. What each register write does to each register: one lemma per field per update. -/

namespace Sys2Proof.Machine

/-! ### `setCall` -/

@[simp] theorem State.setCall_cfg (s : State) (x : Option Call) : (s.setCall x).cfg = s.cfg := rfl
@[simp] theorem State.setCall_input (s : State) (x : Option Call) : (s.setCall x).input = s.input := rfl
@[simp] theorem State.setCall_call (s : State) (x : Option Call) : (s.setCall x).call = x := rfl
@[simp] theorem State.setCall_trace (s : State) (x : Option Call) : (s.setCall x).trace = s.trace := rfl
@[simp] theorem State.setCall_fs (s : State) (x : Option Call) : (s.setCall x).fs = s.fs := rfl
@[simp] theorem State.setCall_buf (s : State) (x : Option Call) : (s.setCall x).buf = s.buf := rfl
@[simp] theorem State.setCall_tg (s : State) (x : Option Call) : (s.setCall x).tg = s.tg := rfl
@[simp] theorem State.setCall_acc (s : State) (x : Option Call) : (s.setCall x).acc = s.acc := rfl
@[simp] theorem State.setCall_hdr (s : State) (x : Option Call) : (s.setCall x).hdr = s.hdr := rfl
@[simp] theorem State.setCall_lenwarn (s : State) (x : Option Call) : (s.setCall x).lenwarn = s.lenwarn := rfl
@[simp] theorem State.setCall_k (s : State) (x : Option Call) : (s.setCall x).k = s.k := rfl
@[simp] theorem State.setCall_cur (s : State) (x : Option Call) : (s.setCall x).cur = s.cur := rfl
@[simp] theorem State.setCall_f (s : State) (x : Option Call) : (s.setCall x).f = s.f := rfl
@[simp] theorem State.setCall_res (s : State) (x : Option Call) : (s.setCall x).res = s.res := rfl

/-! ### `setInput` -/

@[simp] theorem State.setInput_cfg (s : State) (x : List Byte) : (s.setInput x).cfg = s.cfg := rfl
@[simp] theorem State.setInput_input (s : State) (x : List Byte) : (s.setInput x).input = x := rfl
@[simp] theorem State.setInput_call (s : State) (x : List Byte) : (s.setInput x).call = s.call := rfl
@[simp] theorem State.setInput_trace (s : State) (x : List Byte) : (s.setInput x).trace = s.trace := rfl
@[simp] theorem State.setInput_fs (s : State) (x : List Byte) : (s.setInput x).fs = s.fs := rfl
@[simp] theorem State.setInput_buf (s : State) (x : List Byte) : (s.setInput x).buf = s.buf := rfl
@[simp] theorem State.setInput_tg (s : State) (x : List Byte) : (s.setInput x).tg = s.tg := rfl
@[simp] theorem State.setInput_acc (s : State) (x : List Byte) : (s.setInput x).acc = s.acc := rfl
@[simp] theorem State.setInput_hdr (s : State) (x : List Byte) : (s.setInput x).hdr = s.hdr := rfl
@[simp] theorem State.setInput_lenwarn (s : State) (x : List Byte) : (s.setInput x).lenwarn = s.lenwarn := rfl
@[simp] theorem State.setInput_k (s : State) (x : List Byte) : (s.setInput x).k = s.k := rfl
@[simp] theorem State.setInput_cur (s : State) (x : List Byte) : (s.setInput x).cur = s.cur := rfl
@[simp] theorem State.setInput_f (s : State) (x : List Byte) : (s.setInput x).f = s.f := rfl
@[simp] theorem State.setInput_res (s : State) (x : List Byte) : (s.setInput x).res = s.res := rfl

/-! ### `setFs` -/

@[simp] theorem State.setFs_cfg (s : State) (x : FState) : (s.setFs x).cfg = s.cfg := rfl
@[simp] theorem State.setFs_input (s : State) (x : FState) : (s.setFs x).input = s.input := rfl
@[simp] theorem State.setFs_call (s : State) (x : FState) : (s.setFs x).call = s.call := rfl
@[simp] theorem State.setFs_trace (s : State) (x : FState) : (s.setFs x).trace = s.trace := rfl
@[simp] theorem State.setFs_fs (s : State) (x : FState) : (s.setFs x).fs = x := rfl
@[simp] theorem State.setFs_buf (s : State) (x : FState) : (s.setFs x).buf = s.buf := rfl
@[simp] theorem State.setFs_tg (s : State) (x : FState) : (s.setFs x).tg = s.tg := rfl
@[simp] theorem State.setFs_acc (s : State) (x : FState) : (s.setFs x).acc = s.acc := rfl
@[simp] theorem State.setFs_hdr (s : State) (x : FState) : (s.setFs x).hdr = s.hdr := rfl
@[simp] theorem State.setFs_lenwarn (s : State) (x : FState) : (s.setFs x).lenwarn = s.lenwarn := rfl
@[simp] theorem State.setFs_k (s : State) (x : FState) : (s.setFs x).k = s.k := rfl
@[simp] theorem State.setFs_cur (s : State) (x : FState) : (s.setFs x).cur = s.cur := rfl
@[simp] theorem State.setFs_f (s : State) (x : FState) : (s.setFs x).f = s.f := rfl
@[simp] theorem State.setFs_res (s : State) (x : FState) : (s.setFs x).res = s.res := rfl

/-! ### `setBuf` -/

@[simp] theorem State.setBuf_cfg (s : State) (x : List Byte) : (s.setBuf x).cfg = s.cfg := rfl
@[simp] theorem State.setBuf_input (s : State) (x : List Byte) : (s.setBuf x).input = s.input := rfl
@[simp] theorem State.setBuf_call (s : State) (x : List Byte) : (s.setBuf x).call = s.call := rfl
@[simp] theorem State.setBuf_trace (s : State) (x : List Byte) : (s.setBuf x).trace = s.trace := rfl
@[simp] theorem State.setBuf_fs (s : State) (x : List Byte) : (s.setBuf x).fs = s.fs := rfl
@[simp] theorem State.setBuf_buf (s : State) (x : List Byte) : (s.setBuf x).buf = x := rfl
@[simp] theorem State.setBuf_tg (s : State) (x : List Byte) : (s.setBuf x).tg = s.tg := rfl
@[simp] theorem State.setBuf_acc (s : State) (x : List Byte) : (s.setBuf x).acc = s.acc := rfl
@[simp] theorem State.setBuf_hdr (s : State) (x : List Byte) : (s.setBuf x).hdr = s.hdr := rfl
@[simp] theorem State.setBuf_lenwarn (s : State) (x : List Byte) : (s.setBuf x).lenwarn = s.lenwarn := rfl
@[simp] theorem State.setBuf_k (s : State) (x : List Byte) : (s.setBuf x).k = s.k := rfl
@[simp] theorem State.setBuf_cur (s : State) (x : List Byte) : (s.setBuf x).cur = s.cur := rfl
@[simp] theorem State.setBuf_f (s : State) (x : List Byte) : (s.setBuf x).f = s.f := rfl
@[simp] theorem State.setBuf_res (s : State) (x : List Byte) : (s.setBuf x).res = s.res := rfl

/-! ### `setTg` -/

@[simp] theorem State.setTg_cfg (s : State) (x : Telegram) : (s.setTg x).cfg = s.cfg := rfl
@[simp] theorem State.setTg_input (s : State) (x : Telegram) : (s.setTg x).input = s.input := rfl
@[simp] theorem State.setTg_call (s : State) (x : Telegram) : (s.setTg x).call = s.call := rfl
@[simp] theorem State.setTg_trace (s : State) (x : Telegram) : (s.setTg x).trace = s.trace := rfl
@[simp] theorem State.setTg_fs (s : State) (x : Telegram) : (s.setTg x).fs = s.fs := rfl
@[simp] theorem State.setTg_buf (s : State) (x : Telegram) : (s.setTg x).buf = s.buf := rfl
@[simp] theorem State.setTg_tg (s : State) (x : Telegram) : (s.setTg x).tg = x := rfl
@[simp] theorem State.setTg_acc (s : State) (x : Telegram) : (s.setTg x).acc = s.acc := rfl
@[simp] theorem State.setTg_hdr (s : State) (x : Telegram) : (s.setTg x).hdr = s.hdr := rfl
@[simp] theorem State.setTg_lenwarn (s : State) (x : Telegram) : (s.setTg x).lenwarn = s.lenwarn := rfl
@[simp] theorem State.setTg_k (s : State) (x : Telegram) : (s.setTg x).k = s.k := rfl
@[simp] theorem State.setTg_cur (s : State) (x : Telegram) : (s.setTg x).cur = s.cur := rfl
@[simp] theorem State.setTg_f (s : State) (x : Telegram) : (s.setTg x).f = s.f := rfl
@[simp] theorem State.setTg_res (s : State) (x : Telegram) : (s.setTg x).res = s.res := rfl

/-! ### `setAcc` -/

@[simp] theorem State.setAcc_cfg (s : State) (x : Byte) : (s.setAcc x).cfg = s.cfg := rfl
@[simp] theorem State.setAcc_input (s : State) (x : Byte) : (s.setAcc x).input = s.input := rfl
@[simp] theorem State.setAcc_call (s : State) (x : Byte) : (s.setAcc x).call = s.call := rfl
@[simp] theorem State.setAcc_trace (s : State) (x : Byte) : (s.setAcc x).trace = s.trace := rfl
@[simp] theorem State.setAcc_fs (s : State) (x : Byte) : (s.setAcc x).fs = s.fs := rfl
@[simp] theorem State.setAcc_buf (s : State) (x : Byte) : (s.setAcc x).buf = s.buf := rfl
@[simp] theorem State.setAcc_tg (s : State) (x : Byte) : (s.setAcc x).tg = s.tg := rfl
@[simp] theorem State.setAcc_acc (s : State) (x : Byte) : (s.setAcc x).acc = x := rfl
@[simp] theorem State.setAcc_hdr (s : State) (x : Byte) : (s.setAcc x).hdr = s.hdr := rfl
@[simp] theorem State.setAcc_lenwarn (s : State) (x : Byte) : (s.setAcc x).lenwarn = s.lenwarn := rfl
@[simp] theorem State.setAcc_k (s : State) (x : Byte) : (s.setAcc x).k = s.k := rfl
@[simp] theorem State.setAcc_cur (s : State) (x : Byte) : (s.setAcc x).cur = s.cur := rfl
@[simp] theorem State.setAcc_f (s : State) (x : Byte) : (s.setAcc x).f = s.f := rfl
@[simp] theorem State.setAcc_res (s : State) (x : Byte) : (s.setAcc x).res = s.res := rfl

/-! ### `setHdr` -/

@[simp] theorem State.setHdr_cfg (s : State) (x : HeaderRegs) : (s.setHdr x).cfg = s.cfg := rfl
@[simp] theorem State.setHdr_input (s : State) (x : HeaderRegs) : (s.setHdr x).input = s.input := rfl
@[simp] theorem State.setHdr_call (s : State) (x : HeaderRegs) : (s.setHdr x).call = s.call := rfl
@[simp] theorem State.setHdr_trace (s : State) (x : HeaderRegs) : (s.setHdr x).trace = s.trace := rfl
@[simp] theorem State.setHdr_fs (s : State) (x : HeaderRegs) : (s.setHdr x).fs = s.fs := rfl
@[simp] theorem State.setHdr_buf (s : State) (x : HeaderRegs) : (s.setHdr x).buf = s.buf := rfl
@[simp] theorem State.setHdr_tg (s : State) (x : HeaderRegs) : (s.setHdr x).tg = s.tg := rfl
@[simp] theorem State.setHdr_acc (s : State) (x : HeaderRegs) : (s.setHdr x).acc = s.acc := rfl
@[simp] theorem State.setHdr_hdr (s : State) (x : HeaderRegs) : (s.setHdr x).hdr = x := rfl
@[simp] theorem State.setHdr_lenwarn (s : State) (x : HeaderRegs) : (s.setHdr x).lenwarn = s.lenwarn := rfl
@[simp] theorem State.setHdr_k (s : State) (x : HeaderRegs) : (s.setHdr x).k = s.k := rfl
@[simp] theorem State.setHdr_cur (s : State) (x : HeaderRegs) : (s.setHdr x).cur = s.cur := rfl
@[simp] theorem State.setHdr_f (s : State) (x : HeaderRegs) : (s.setHdr x).f = s.f := rfl
@[simp] theorem State.setHdr_res (s : State) (x : HeaderRegs) : (s.setHdr x).res = s.res := rfl

/-! ### `setLenwarn` -/

@[simp] theorem State.setLenwarn_cfg (s : State) (x : Bool) : (s.setLenwarn x).cfg = s.cfg := rfl
@[simp] theorem State.setLenwarn_input (s : State) (x : Bool) : (s.setLenwarn x).input = s.input := rfl
@[simp] theorem State.setLenwarn_call (s : State) (x : Bool) : (s.setLenwarn x).call = s.call := rfl
@[simp] theorem State.setLenwarn_trace (s : State) (x : Bool) : (s.setLenwarn x).trace = s.trace := rfl
@[simp] theorem State.setLenwarn_fs (s : State) (x : Bool) : (s.setLenwarn x).fs = s.fs := rfl
@[simp] theorem State.setLenwarn_buf (s : State) (x : Bool) : (s.setLenwarn x).buf = s.buf := rfl
@[simp] theorem State.setLenwarn_tg (s : State) (x : Bool) : (s.setLenwarn x).tg = s.tg := rfl
@[simp] theorem State.setLenwarn_acc (s : State) (x : Bool) : (s.setLenwarn x).acc = s.acc := rfl
@[simp] theorem State.setLenwarn_hdr (s : State) (x : Bool) : (s.setLenwarn x).hdr = s.hdr := rfl
@[simp] theorem State.setLenwarn_lenwarn (s : State) (x : Bool) : (s.setLenwarn x).lenwarn = x := rfl
@[simp] theorem State.setLenwarn_k (s : State) (x : Bool) : (s.setLenwarn x).k = s.k := rfl
@[simp] theorem State.setLenwarn_cur (s : State) (x : Bool) : (s.setLenwarn x).cur = s.cur := rfl
@[simp] theorem State.setLenwarn_f (s : State) (x : Bool) : (s.setLenwarn x).f = s.f := rfl
@[simp] theorem State.setLenwarn_res (s : State) (x : Bool) : (s.setLenwarn x).res = s.res := rfl

/-! ### `setK` -/

@[simp] theorem State.setK_cfg (s : State) (x : Option Nat) : (s.setK x).cfg = s.cfg := rfl
@[simp] theorem State.setK_input (s : State) (x : Option Nat) : (s.setK x).input = s.input := rfl
@[simp] theorem State.setK_call (s : State) (x : Option Nat) : (s.setK x).call = s.call := rfl
@[simp] theorem State.setK_trace (s : State) (x : Option Nat) : (s.setK x).trace = s.trace := rfl
@[simp] theorem State.setK_fs (s : State) (x : Option Nat) : (s.setK x).fs = s.fs := rfl
@[simp] theorem State.setK_buf (s : State) (x : Option Nat) : (s.setK x).buf = s.buf := rfl
@[simp] theorem State.setK_tg (s : State) (x : Option Nat) : (s.setK x).tg = s.tg := rfl
@[simp] theorem State.setK_acc (s : State) (x : Option Nat) : (s.setK x).acc = s.acc := rfl
@[simp] theorem State.setK_hdr (s : State) (x : Option Nat) : (s.setK x).hdr = s.hdr := rfl
@[simp] theorem State.setK_lenwarn (s : State) (x : Option Nat) : (s.setK x).lenwarn = s.lenwarn := rfl
@[simp] theorem State.setK_k (s : State) (x : Option Nat) : (s.setK x).k = x := rfl
@[simp] theorem State.setK_cur (s : State) (x : Option Nat) : (s.setK x).cur = s.cur := rfl
@[simp] theorem State.setK_f (s : State) (x : Option Nat) : (s.setK x).f = s.f := rfl
@[simp] theorem State.setK_res (s : State) (x : Option Nat) : (s.setK x).res = s.res := rfl

/-! ### `setCur` -/

@[simp] theorem State.setCur_cfg (s : State) (x : Nat) : (s.setCur x).cfg = s.cfg := rfl
@[simp] theorem State.setCur_input (s : State) (x : Nat) : (s.setCur x).input = s.input := rfl
@[simp] theorem State.setCur_call (s : State) (x : Nat) : (s.setCur x).call = s.call := rfl
@[simp] theorem State.setCur_trace (s : State) (x : Nat) : (s.setCur x).trace = s.trace := rfl
@[simp] theorem State.setCur_fs (s : State) (x : Nat) : (s.setCur x).fs = s.fs := rfl
@[simp] theorem State.setCur_buf (s : State) (x : Nat) : (s.setCur x).buf = s.buf := rfl
@[simp] theorem State.setCur_tg (s : State) (x : Nat) : (s.setCur x).tg = s.tg := rfl
@[simp] theorem State.setCur_acc (s : State) (x : Nat) : (s.setCur x).acc = s.acc := rfl
@[simp] theorem State.setCur_hdr (s : State) (x : Nat) : (s.setCur x).hdr = s.hdr := rfl
@[simp] theorem State.setCur_lenwarn (s : State) (x : Nat) : (s.setCur x).lenwarn = s.lenwarn := rfl
@[simp] theorem State.setCur_k (s : State) (x : Nat) : (s.setCur x).k = s.k := rfl
@[simp] theorem State.setCur_cur (s : State) (x : Nat) : (s.setCur x).cur = x := rfl
@[simp] theorem State.setCur_f (s : State) (x : Nat) : (s.setCur x).f = s.f := rfl
@[simp] theorem State.setCur_res (s : State) (x : Nat) : (s.setCur x).res = s.res := rfl

/-! ### `setF` -/

@[simp] theorem State.setF_cfg (s : State) (x : List RawVal) : (s.setF x).cfg = s.cfg := rfl
@[simp] theorem State.setF_input (s : State) (x : List RawVal) : (s.setF x).input = s.input := rfl
@[simp] theorem State.setF_call (s : State) (x : List RawVal) : (s.setF x).call = s.call := rfl
@[simp] theorem State.setF_trace (s : State) (x : List RawVal) : (s.setF x).trace = s.trace := rfl
@[simp] theorem State.setF_fs (s : State) (x : List RawVal) : (s.setF x).fs = s.fs := rfl
@[simp] theorem State.setF_buf (s : State) (x : List RawVal) : (s.setF x).buf = s.buf := rfl
@[simp] theorem State.setF_tg (s : State) (x : List RawVal) : (s.setF x).tg = s.tg := rfl
@[simp] theorem State.setF_acc (s : State) (x : List RawVal) : (s.setF x).acc = s.acc := rfl
@[simp] theorem State.setF_hdr (s : State) (x : List RawVal) : (s.setF x).hdr = s.hdr := rfl
@[simp] theorem State.setF_lenwarn (s : State) (x : List RawVal) : (s.setF x).lenwarn = s.lenwarn := rfl
@[simp] theorem State.setF_k (s : State) (x : List RawVal) : (s.setF x).k = s.k := rfl
@[simp] theorem State.setF_cur (s : State) (x : List RawVal) : (s.setF x).cur = s.cur := rfl
@[simp] theorem State.setF_f (s : State) (x : List RawVal) : (s.setF x).f = x := rfl
@[simp] theorem State.setF_res (s : State) (x : List RawVal) : (s.setF x).res = s.res := rfl

/-! ### `setRes` -/

@[simp] theorem State.setRes_cfg (s : State) (x : Result) : (s.setRes x).cfg = s.cfg := rfl
@[simp] theorem State.setRes_input (s : State) (x : Result) : (s.setRes x).input = s.input := rfl
@[simp] theorem State.setRes_call (s : State) (x : Result) : (s.setRes x).call = s.call := rfl
@[simp] theorem State.setRes_trace (s : State) (x : Result) : (s.setRes x).trace = s.trace := rfl
@[simp] theorem State.setRes_fs (s : State) (x : Result) : (s.setRes x).fs = s.fs := rfl
@[simp] theorem State.setRes_buf (s : State) (x : Result) : (s.setRes x).buf = s.buf := rfl
@[simp] theorem State.setRes_tg (s : State) (x : Result) : (s.setRes x).tg = s.tg := rfl
@[simp] theorem State.setRes_acc (s : State) (x : Result) : (s.setRes x).acc = s.acc := rfl
@[simp] theorem State.setRes_hdr (s : State) (x : Result) : (s.setRes x).hdr = s.hdr := rfl
@[simp] theorem State.setRes_lenwarn (s : State) (x : Result) : (s.setRes x).lenwarn = s.lenwarn := rfl
@[simp] theorem State.setRes_k (s : State) (x : Result) : (s.setRes x).k = s.k := rfl
@[simp] theorem State.setRes_cur (s : State) (x : Result) : (s.setRes x).cur = s.cur := rfl
@[simp] theorem State.setRes_f (s : State) (x : Result) : (s.setRes x).f = s.f := rfl
@[simp] theorem State.setRes_res (s : State) (x : Result) : (s.setRes x).res = x := rfl

/-! ### `emit` and `raise` -/

@[simp] theorem State.emit_cfg (s : State) (e : Event) : (s.emit e).cfg = s.cfg := rfl
@[simp] theorem State.emit_input (s : State) (e : Event) : (s.emit e).input = s.input := rfl
@[simp] theorem State.emit_call (s : State) (e : Event) : (s.emit e).call = s.call := rfl
@[simp] theorem State.emit_trace (s : State) (e : Event) : (s.emit e).trace = s.trace ++ [e] := rfl
@[simp] theorem State.emit_fs (s : State) (e : Event) : (s.emit e).fs = s.fs := rfl
@[simp] theorem State.emit_buf (s : State) (e : Event) : (s.emit e).buf = s.buf := rfl
@[simp] theorem State.emit_tg (s : State) (e : Event) : (s.emit e).tg = s.tg := rfl
@[simp] theorem State.emit_acc (s : State) (e : Event) : (s.emit e).acc = s.acc := rfl
@[simp] theorem State.emit_hdr (s : State) (e : Event) : (s.emit e).hdr = s.hdr := rfl
@[simp] theorem State.emit_lenwarn (s : State) (e : Event) : (s.emit e).lenwarn = s.lenwarn := rfl
@[simp] theorem State.emit_k (s : State) (e : Event) : (s.emit e).k = s.k := rfl
@[simp] theorem State.emit_cur (s : State) (e : Event) : (s.emit e).cur = s.cur := rfl
@[simp] theorem State.emit_f (s : State) (e : Event) : (s.emit e).f = s.f := rfl
@[simp] theorem State.emit_res (s : State) (e : Event) : (s.emit e).res = s.res := rfl
@[simp] theorem State.raise_cfg (s : State) (kind : DiagKind) (info : List Nat) :
    (s.raise kind info).cfg = s.cfg := rfl
@[simp] theorem State.raise_input (s : State) (kind : DiagKind) (info : List Nat) :
    (s.raise kind info).input = s.input := rfl
@[simp] theorem State.raise_call (s : State) (kind : DiagKind) (info : List Nat) :
    (s.raise kind info).call = s.call := rfl
@[simp] theorem State.raise_trace (s : State) (kind : DiagKind) (info : List Nat) :
    (s.raise kind info).trace = s.trace ++ [.diag kind info] := rfl
@[simp] theorem State.raise_fs (s : State) (kind : DiagKind) (info : List Nat) :
    (s.raise kind info).fs = s.fs := rfl
@[simp] theorem State.raise_buf (s : State) (kind : DiagKind) (info : List Nat) :
    (s.raise kind info).buf = s.buf := rfl
@[simp] theorem State.raise_tg (s : State) (kind : DiagKind) (info : List Nat) :
    (s.raise kind info).tg = s.tg := rfl
@[simp] theorem State.raise_acc (s : State) (kind : DiagKind) (info : List Nat) :
    (s.raise kind info).acc = s.acc := rfl
@[simp] theorem State.raise_hdr (s : State) (kind : DiagKind) (info : List Nat) :
    (s.raise kind info).hdr = s.hdr := rfl
@[simp] theorem State.raise_lenwarn (s : State) (kind : DiagKind) (info : List Nat) :
    (s.raise kind info).lenwarn = s.lenwarn := rfl
@[simp] theorem State.raise_k (s : State) (kind : DiagKind) (info : List Nat) :
    (s.raise kind info).k = s.k := rfl
@[simp] theorem State.raise_cur (s : State) (kind : DiagKind) (info : List Nat) :
    (s.raise kind info).cur = s.cur := rfl
@[simp] theorem State.raise_f (s : State) (kind : DiagKind) (info : List Nat) :
    (s.raise kind info).f = s.f := rfl
@[simp] theorem State.raise_res (s : State) (kind : DiagKind) (info : List Nat) :
    (s.raise kind info).res = s.res := rfl

end Sys2Proof.Machine
end

