-- ==== Sys2Proof/Laws/Ops.lean ====
section
/-! SUPPORT. What each shared operation can do, said once. -/

namespace Sys2Proof.Machine

/-! ### The buffer -/

/-- An append answers a next state exactly when the buffer is not at its capacity, and then only the buffer changes. -/
theorem append_eq (s : State) (b : Byte) :
    s.append b =
      if s.cfg.bufCap = some s.buf.length then .fault .bufferOverflow
      else .next { s with buf := s.buf ++ [b] } := by
  unfold State.append State.bufFull
  cases h : s.cfg.bufCap with
  | none => simp [State.setBuf]
  | some cap =>
    by_cases hc : s.buf.length = cap
    · simp [hc]
    · simp [State.setBuf, hc, Ne.symm hc]

/-- An append keeps the memory's canonical form. -/
theorem append_wf {s t : State} {b : Byte} (hs : Memory.wf s.cfg.bufCap s.buf = true) (h : s.append b = .next t) :
    Memory.wf t.cfg.bufCap t.buf = true := by
  rw [append_eq] at h
  split at h
  · cases h
  · rename_i hne
    cases h
    revert hs hne
    simp only [Memory.wf]
    cases hc : s.cfg.bufCap with
    | none => simp
    | some cap => simp; omega

/-- Emptying the buffer keeps the memory's canonical form. -/
theorem clear_wf (cap : Option Nat) : Memory.wf cap [] = true := by
  cases cap <;> simp [Memory.wf]

/-- The memory is in its canonical form at reset. -/
theorem reset_memory_wf : Memory.wf State.reset.cfg.bufCap State.reset.buf = true := rfl

@[simp] theorem thenNext_next (s : State) (g : State → State) : Answer.thenNext (.next s) g = .next (g s) := rfl
@[simp] theorem thenNext_fault (r : Fault) (g : State → State) : Answer.thenNext (.fault r) g = .fault r := rfl
@[simp] theorem thenNext_refused (r : Refusal) (g : State → State) :
    Answer.thenNext (.refused r) g = .refused r := rfl

/-! ### Sub-lists of a telegram -/

/-- The bytes the checksum covers are all but the last. -/
theorem summedBytes_eq (t : Telegram) : summedBytes t = t.dropLast := by
  simp [summedBytes, subList, List.dropLast_eq_take]

/-- The payload of a telegram is its bytes from 4 on, less the last. -/
theorem payload_eq (t : Telegram) : payload t = (t.drop 4).dropLast := by
  simp only [payload, subList, List.dropLast_eq_take, List.length_drop]
  congr 1

theorem payload_length (t : Telegram) : (payload t).length = t.length - 5 := by
  simp [payload_eq]
  omega

/-! ### The checksum -/

@[simp] theorem ckCompute_nil (t : CkTable) : ckCompute t [] = 0 := rfl

/-- The recurrence of R132. -/
@[simp] theorem ckCompute_snoc (t : CkTable) (bs : List Byte) (b : Byte) :
    ckCompute t (bs ++ [b]) = t.get (ckCompute t bs) ^^^ b := by
  simp [ckCompute, ckUpdate]

/-! ### The unpack loop -/

theorem applySlot_fits {sl : Slot} {p : List Byte} {s : State} (h : s.cur + sl.width ≤ p.length) :
    applySlot sl p s = ({ s with f := s.f ++ slotFields sl p s.cur, cur := s.cur + sl.width }, true) := by
  simp [applySlot, State.setF, State.setCur, Nat.not_lt.mpr h]

theorem applySlot_short {sl : Slot} {p : List Byte} {s : State} (h : p.length < s.cur + sl.width) :
    applySlot sl p s = ({ s with f := [] }, false) := by
  simp [applySlot, State.setF, h]

/-- The loop succeeds when the widths fit, and then appends the fields and moves the cursor over them. -/
theorem unpackLoop_fits (p : List Byte) (layout : Layout) (s : State)
    (h : s.cur + layoutWidth layout ≤ p.length) :
    unpackLoop p layout s =
      ({ s with f := s.f ++ fieldsFrom p s.cur layout, cur := s.cur + layoutWidth layout }, true) := by
  induction layout generalizing s with
  | nil => simp [unpackLoop, fieldsFrom, layoutWidth]
  | cons sl rest ih =>
    simp only [layoutWidth] at h
    rw [unpackLoop, applySlot_fits (by omega)]
    simp only
    rw [ih _ (by simp only; omega)]
    simp [fieldsFrom, layoutWidth, Nat.add_assoc]

/-- The loop fails when the widths do not fit, and then only `F`, emptied, and the cursor change. -/
theorem unpackLoop_short (p : List Byte) (layout : Layout) (s : State)
    (hc : s.cur ≤ p.length) (h : p.length < s.cur + layoutWidth layout) :
    ∃ c, unpackLoop p layout s = ({ s with f := [], cur := c }, false) := by
  induction layout generalizing s with
  | nil => simp [layoutWidth] at h; omega
  | cons sl rest ih =>
    by_cases hw : s.cur + sl.width ≤ p.length
    · rw [unpackLoop, applySlot_fits hw]
      simp only [layoutWidth] at h
      obtain ⟨c, hr⟩ := ih { s with f := s.f ++ slotFields sl p s.cur, cur := s.cur + sl.width } hw
        (by simp only; omega)
      exact ⟨c, by simp only; rw [hr]⟩
    · rw [unpackLoop, applySlot_short (by omega)]
      exact ⟨s.cur, rfl⟩

/-- `UP.UNPACK` succeeds when the layout is no wider than the payload (R187). -/
theorem unpack_fits {layout : Layout} {p : List Byte} (s : State) (h : layoutWidth layout ≤ p.length) :
    unpack layout p s = ({ s with f := fieldsFrom p 0 layout, cur := layoutWidth layout }, true) := by
  rw [unpack, unpackLoop_fits _ _ _ (by simpa using h)]
  simp [State.setCur, State.setF]

/-- `UP.UNPACK` fails when the layout is wider than the payload (R187). -/
theorem unpack_short {layout : Layout} {p : List Byte} (s : State) (h : p.length < layoutWidth layout) :
    ∃ c, unpack layout p s = ({ s with f := [], cur := c }, false) := by
  obtain ⟨c, hc⟩ := unpackLoop_short p layout ((s.setCur 0).setF []) (by simp) (by simpa using h)
  exact ⟨c, by rw [unpack, hc]; simp [State.setCur, State.setF]⟩

/-! ### The catalog -/

theorem lookupFrom_eq (typ : Byte) (n : Nat) (catalog : List Entry) :
    lookupFrom typ n catalog =
      (catalog.findIdx? fun e => e.id == typ).bind fun k => catalog[k]?.map fun e => (n + k, e) := by
  induction catalog generalizing n with
  | nil => rfl
  | cons e rest ih =>
    by_cases h : e.id = typ
    · simp [lookupFrom, h, List.findIdx?_cons]
    · simp only [lookupFrom, h, if_false, ih, List.findIdx?_cons]
      cases hk : rest.findIdx? fun e => e.id == typ with
      | none => simp [h]
      | some k =>
        simp only [beq_eq_false_iff_ne.mpr h, Bool.false_eq_true, if_false, Option.map_some, Option.bind_some,
          List.getElem?_cons_succ]
        congr 1
        funext e'
        simp; omega

/-- `CAT.LOOKUP` is the search for the first index (R156, R157). -/
theorem lookup_eq (typ : Byte) (catalog : List Entry) :
    lookup typ catalog =
      (catalog.findIdx? fun e => e.id == typ).bind fun k => catalog[k]?.map fun e => (k, e) := by
  rw [lookup, lookupFrom_eq]
  simp

/-- What a successful search found. -/
theorem lookup_some {typ : Byte} {catalog : List Entry} {k : Nat} {e : Entry} (h : lookup typ catalog = some (k, e)) :
    catalog[k]? = some e ∧ e.id = typ := by
  rw [lookup_eq] at h
  cases hk : catalog.findIdx? fun e => e.id == typ with
  | none => simp [hk] at h
  | some j =>
    simp only [hk, Option.bind_some, Option.map_eq_some_iff, Prod.mk.injEq] at h
    obtain ⟨e', he', rfl, rfl⟩ := h
    obtain ⟨hj, hid, -⟩ := List.findIdx?_eq_some_iff_getElem.mp hk
    rw [List.getElem?_eq_getElem hj] at he'
    cases he'
    exact ⟨List.getElem?_eq_getElem hj, by simpa using hid⟩

/-- What an unsuccessful search means. -/
theorem lookup_none {typ : Byte} {catalog : List Entry} :
    lookup typ catalog = none ↔ ∀ e ∈ catalog, e.id ≠ typ := by
  constructor
  · intro h e he hid
    rw [lookup_eq] at h
    cases hk : catalog.findIdx? fun e => e.id == typ with
    | none => exact absurd (List.findIdx?_eq_none_iff.mp hk e he) (by simp [hid])
    | some j =>
      obtain ⟨hj, -, -⟩ := List.findIdx?_eq_some_iff_getElem.mp hk
      simp [hk, List.getElem?_eq_getElem hj] at h
  · intro h
    rw [lookup_eq, List.findIdx?_eq_none_iff.mpr (by simpa using h)]
    rfl

/-! ### The short-circuit -/

@[simp] theorem orElse_some (s : State) (o : DpOutcome) (rest : State → State × DpOutcome) :
    DpStep.orElse (s, some o) rest = (s, o) := rfl
@[simp] theorem orElse_none (s : State) (rest : State → State × DpOutcome) :
    DpStep.orElse (s, none) rest = rest s := rfl
@[simp] theorem latch_eq (s : State) (o : Option DpOutcome) :
    DpStep.latch (s, o) = s.setRes (.pipeline o) := rfl

/-! ### The composition of sentinel and scale -/

@[simp] theorem presentValue_absent : presentValue (.sent .absent) = none := rfl
@[simp] theorem presentValue_present (w : RawVal) : presentValue (.sent (.present w)) = fieldValue w := rfl

/-- Where `PX.SENT` refuses, so does the composition. -/
theorem sentThenScale_refused {v : RawVal} {sentinel num den : Int} {s : State} {r : Refusal}
    (h : execPxSent v sentinel s = .refused r) : sentThenScale v sentinel num den s = .refused r := by
  simp [sentThenScale, h]

/-- Where `PX.SENT` answers a next state, the composition goes on from it. -/
theorem sentThenScale_next {v : RawVal} {sentinel num den : Int} {s t : State} (h : execPxSent v sentinel s = .next t) :
    sentThenScale v sentinel num den s = scalePresent num den t := by
  simp [sentThenScale, h]

/-- A present value is scaled. -/
theorem scalePresent_some {num den x : Int} {t : State} (h : presentValue t.res = some x) :
    scalePresent num den t = execPxScale x num den t := by
  simp [scalePresent, h]

/-- Where no value is present nothing is scaled. -/
theorem scalePresent_none {num den : Int} {t : State} (h : presentValue t.res = none) : scalePresent num den t = .next t := by
  simp [scalePresent, h]

/-! ### A step of the worker -/

/-- With no call and no byte pending a step waits. -/
theorem step_blocked {s : State} (hc : s.call = none) (hi : s.input = []) : step s = .next s := by
  simp [step, fetch, hc, hi]

/-- A byte step runs the transition its key selects. -/
theorem step_byte {s : State} {b : Byte} {rest : List Byte} (hc : s.call = none) (hi : s.input = b :: rest) :
    step s = exec (.frStep b) (s.setInput rest) := by
  simp only [step, fetch, hc, hi]
  cases hf : s.fs with
  | normal =>
    rw [decodeKey_normal]
    by_cases h : b = markerByte
    · simp only [exec, execFrStep, State.setInput_fs, hf, if_pos h]
    · simp only [exec, execFrStep, State.setInput_fs, hf, if_neg h]
  | markSeen =>
    rw [decodeKey_markSeen]
    by_cases h0 : b = zeroByte
    · simp only [exec, execFrStep, State.setInput_fs, hf, if_pos h0]
    · by_cases h : b = markerByte
      · simp only [exec, execFrStep, State.setInput_fs, hf, if_neg h0, if_pos h]
      · simp only [exec, execFrStep, State.setInput_fs, hf, if_neg h0, if_neg h]
  | markZero =>
    rw [decodeKey_markZero]
    by_cases h0 : b = zeroByte
    · simp only [exec, execFrStep, State.setInput_fs, hf, if_pos h0]
    · simp only [exec, execFrStep, State.setInput_fs, hf, if_neg h0]

/-- A call step runs the operation the call's word decodes to. -/
theorem step_call {s : State} {c : Call} {i : Instr} (hc : s.call = some c) (hd : decode c.word c.args = .ok i) :
    step s = exec i (s.setCall none) := by
  simp [step, fetch, hc, hd]

end Sys2Proof.Machine
end

