-- ==== Sys2Proof/Laws/PerInstr.lean ====
section
/-! SUPPORT. The family TableRow: the word the encoder gives a well-formed operation has the length of its row's format and
meets the row's match and mask in spec/opcode_table.json. -/

namespace Sys2Proof.Laws.TableRow

/-- A row of spec/opcode_table.json: the bytes of a word of its format, its match, its mask. -/
structure Row where
  size : Nat
  pattern : Nat
  mask : Nat
  deriving DecidableEq, Repr

/-- The rows of spec/opcode_table.json. -/
def row : Instr → Row
  | .frNMark => ⟨2, 0x0FF, 0x3FF⟩
  | .frNData _ => ⟨2, 0x000, 0x300⟩
  | .frSZero => ⟨2, 0x100, 0x3FF⟩
  | .frSLit => ⟨2, 0x1FF, 0x3FF⟩
  | .frSBad _ => ⟨2, 0x100, 0x300⟩
  | .frZBreak => ⟨2, 0x200, 0x3FF⟩
  | .frZPerr _ => ⟨2, 0x200, 0x300⟩
  | .upU8 => ⟨2, 0x4201, 0xFFFF⟩
  | .upS8 => ⟨2, 0x6201, 0xFFFF⟩
  | .upU16 => ⟨2, 0x4801, 0xFFFF⟩
  | .upS16 => ⟨2, 0x6801, 0xFFFF⟩
  | .upStr _ => ⟨2, 0x7300, 0xFF00⟩
  | .upSkip _ => ⟨2, 0x7800, 0xFF00⟩
  | .frStep _ => ⟨1, 0x00, 0xFF⟩
  | .ckInit => ⟨1, 0x10, 0xFF⟩
  | .ckUpdate _ => ⟨1, 0x11, 0xFF⟩
  | .ckCompute _ => ⟨1, 0x12, 0xFF⟩
  | .ckCheck => ⟨1, 0x13, 0xFF⟩
  | .dpRun => ⟨1, 0x20, 0xFF⟩
  | .dpPoll => ⟨1, 0x21, 0xFF⟩
  | .dpShort => ⟨1, 0x22, 0xFF⟩
  | .hdParse => ⟨1, 0x23, 0xFF⟩
  | .dpReq => ⟨1, 0x24, 0xFF⟩
  | .dpCksum => ⟨1, 0x25, 0xFF⟩
  | .catLookup => ⟨1, 0x26, 0xFF⟩
  | .dpLen => ⟨1, 0x27, 0xFF⟩
  | .dpUnpack => ⟨1, 0x28, 0xFF⟩
  | .dpHandoff => ⟨1, 0x29, 0xFF⟩
  | .upUnpack _ _ => ⟨1, 0x30, 0xFF⟩
  | .pxBit _ _ => ⟨1, 0x40, 0xFF⟩
  | .pxWide32 _ _ => ⟨1, 0x41, 0xFF⟩
  | .pxBitmap _ => ⟨1, 0x42, 0xFF⟩
  | .pxSent _ _ => ⟨1, 0x43, 0xFF⟩
  | .pxScale _ _ _ => ⟨1, 0x44, 0xFF⟩
  | .reset => ⟨1, 0x7F, 0xFF⟩
  | .hdHeader _ => ⟨4, 0x00000000, 0x00000000⟩

/-- The number a word is, its first byte most significant. -/
def wordNat (bytes : List Byte) : Nat := bytes.foldl (fun n b => 256 * n + b.toNat) 0

/-- The word of a well-formed operation meets its row. -/
def Statement (i : Instr) : Prop :=
  i.wf = true → (encodeWord i).length = (row i).size ∧ wordNat (encodeWord i) &&& (row i).mask = (row i).pattern

theorem frNMark : Statement .frNMark := fun _ => by decide
theorem frNData (b : Byte) : Statement (.frNData b) := fun _ => by revert b; decide
theorem frSZero : Statement .frSZero := fun _ => by decide
theorem frSLit : Statement .frSLit := fun _ => by decide
theorem frSBad (b : Byte) : Statement (.frSBad b) := fun _ => by revert b; decide
theorem frZBreak : Statement .frZBreak := fun _ => by decide
theorem frZPerr (b : Byte) : Statement (.frZPerr b) := fun _ => by revert b; decide
theorem upU8 : Statement .upU8 := fun _ => by decide
theorem upS8 : Statement .upS8 := fun _ => by decide
theorem upU16 : Statement .upU16 := fun _ => by decide
theorem upS16 : Statement .upS16 := fun _ => by decide

/-- A count in range leaves the kind code of a descriptor alone. -/
theorem counted_row (b : Byte) :
    wordNat (encodeWord (.upStr b.toNat)) &&& 0xFF00 = 0x7300 ∧
      wordNat (encodeWord (.upSkip b.toNat)) &&& 0xFF00 = 0x7800 := by
  revert b; decide

theorem toNat_ofCount {n : Nat} (h : n ≤ 255) : (BitVec.ofNat 8 n).toNat = n := by
  rw [BitVec.toNat_ofNat]; omega

theorem upStr (n : Nat) : Statement (.upStr n) := fun h => by
  have hn := toNat_ofCount (n := n) (by simpa [Instr.wf] using h)
  have hc := (counted_row (BitVec.ofNat 8 n)).1
  rw [hn] at hc
  exact ⟨rfl, hc⟩

theorem upSkip (n : Nat) : Statement (.upSkip n) := fun h => by
  have hn := toNat_ofCount (n := n) (by simpa [Instr.wf] using h)
  have hc := (counted_row (BitVec.ofNat 8 n)).2
  rw [hn] at hc
  exact ⟨rfl, hc⟩

theorem frStep (b : Byte) : Statement (.frStep b) := fun _ => ⟨rfl, by simp [wordNat, encodeWord, row]⟩
theorem ckInit : Statement .ckInit := fun _ => by decide
theorem ckUpdate (b : Byte) : Statement (.ckUpdate b) := fun _ => ⟨rfl, by simp [wordNat, encodeWord, row]⟩
theorem ckCompute (bs : List Byte) : Statement (.ckCompute bs) := fun _ => ⟨rfl, by simp [wordNat, encodeWord, row]⟩
theorem ckCheck : Statement .ckCheck := fun _ => by decide
theorem dpRun : Statement .dpRun := fun _ => by decide
theorem dpPoll : Statement .dpPoll := fun _ => by decide
theorem dpShort : Statement .dpShort := fun _ => by decide
theorem hdParse : Statement .hdParse := fun _ => by decide
theorem dpReq : Statement .dpReq := fun _ => by decide
theorem dpCksum : Statement .dpCksum := fun _ => by decide
theorem catLookup : Statement .catLookup := fun _ => by decide
theorem dpLen : Statement .dpLen := fun _ => by decide
theorem dpUnpack : Statement .dpUnpack := fun _ => by decide
theorem dpHandoff : Statement .dpHandoff := fun _ => by decide
theorem upUnpack (layout : Layout) (p : List Byte) : Statement (.upUnpack layout p) := fun _ =>
  ⟨rfl, by simp [wordNat, encodeWord, row]⟩
theorem pxBit (v : RawVal) (mask : Nat) : Statement (.pxBit v mask) := fun _ =>
  ⟨rfl, by simp [wordNat, encodeWord, row]⟩
theorem pxWide32 (high low : RawVal) : Statement (.pxWide32 high low) := fun _ =>
  ⟨rfl, by simp [wordNat, encodeWord, row]⟩
theorem pxBitmap (bs : List Byte) : Statement (.pxBitmap bs) := fun _ => ⟨rfl, by simp [wordNat, encodeWord, row]⟩
theorem pxSent (v : RawVal) (sentinel : Int) : Statement (.pxSent v sentinel) := fun _ =>
  ⟨rfl, by simp [wordNat, encodeWord, row]⟩
theorem pxScale (v num den : Int) : Statement (.pxScale v num den) := fun _ =>
  ⟨rfl, by simp [wordNat, encodeWord, row]⟩
theorem reset : Statement .reset := fun _ => by decide
theorem hdHeader (h : Header) : Statement (.hdHeader h) := fun _ => ⟨rfl, by simp [row]⟩

end Sys2Proof.Laws.TableRow
end

