-- ==== Sys2Proof/Laws/Pipeline.lean ====
section
/-! SUPPORT. What the pipeline leaves alone. -/

namespace Sys2Proof.Machine

/-- `t` has the framer's registers, the tables, the latch and the environment of `s`, and its trace goes on from `s`'s: what
every step of the pipeline, and the pipeline as a whole, does (R150, R242). -/
def PipelineFrame (s t : State) : Prop :=
  t.cfg = s.cfg ∧ t.input = s.input ∧ t.call = s.call ∧ t.fs = s.fs ∧ t.buf = s.buf ∧ t.tg = s.tg ∧ t.res = s.res ∧
    ∃ evs, t.trace = s.trace ++ evs

theorem PipelineFrame.refl (s : State) : PipelineFrame s s := by
  simp [PipelineFrame]

theorem PipelineFrame.trans {s t u : State} (h : PipelineFrame s t) (g : PipelineFrame t u) : PipelineFrame s u := by
  obtain ⟨h1, h2, h3, h4, h5, h6, h7, es, h8⟩ := h
  obtain ⟨g1, g2, g3, g4, g5, g6, g7, fs, g8⟩ := g
  exact ⟨g1.trans h1, g2.trans h2, g3.trans h3, g4.trans h4, g5.trans h5, g6.trans h6, g7.trans h7, es ++ fs, by
    rw [g8, h8, List.append_assoc]⟩

theorem dpPoll_frame (s : State) : PipelineFrame s (dpPoll s).1 := by
  unfold dpPoll; split <;> exact .refl s

theorem dpShort_frame (s : State) : PipelineFrame s (dpShort s).1 := by
  unfold dpShort; split <;> simp [PipelineFrame]

theorem hdParse_frame (s : State) : PipelineFrame s (hdParse s) := by
  simp [PipelineFrame, hdParse]

theorem dpReq_frame (s : State) : PipelineFrame s (dpReq s).1 := by
  unfold dpReq; split <;> simp [PipelineFrame]

theorem dpCksum_frame (s : State) : PipelineFrame s (dpCksum s).1 := by
  unfold dpCksum ckCheckState; simp only; split <;> simp [PipelineFrame]

theorem unknownType_frame (s : State) : PipelineFrame s (unknownType s) := by
  simp [PipelineFrame, unknownType]

theorem dpLen_frame (k : Nat) (e : Entry) (s : State) : PipelineFrame s (dpLen k e s) := by
  unfold dpLen; simp only; split <;> simp [PipelineFrame]

theorem unpack_frame (layout : Layout) (p : List Byte) (s : State) : PipelineFrame s (unpack layout p s).1 := by
  by_cases h : layoutWidth layout ≤ p.length
  · rw [unpack_fits s h]; simp [PipelineFrame]
  · obtain ⟨c, hc⟩ := unpack_short (layout := layout) (p := p) s (by omega)
    rw [hc]; simp [PipelineFrame]

theorem dpUnpack_frame (k : Nat) (e : Entry) (s : State) : PipelineFrame s (dpUnpack k e s).1 := by
  have h := unpack_frame e.layout (payload s.tg) s
  unfold dpUnpack
  split
  · rename_i heq; rw [heq] at h; exact h
  · rename_i heq; rw [heq] at h; exact h.trans (by simp [PipelineFrame])

theorem dpHandoff_frame (k : Nat) (s : State) : PipelineFrame s (dpHandoff k s).1 := by
  simp [PipelineFrame, dpHandoff]

/-- The short-circuit keeps what its two halves keep. -/
theorem orElse_frame {s : State} {r : DpStep} {rest : State → State × DpOutcome} (h : PipelineFrame s r.1)
    (g : ∀ t, PipelineFrame t (rest t).1) : PipelineFrame s (r.orElse rest).1 := by
  obtain ⟨t, _ | o⟩ := r
  · exact h.trans (g t)
  · exact h

theorem dpLookupAndDecode_frame (s : State) : PipelineFrame s (dpLookupAndDecode s).1 := by
  unfold dpLookupAndDecode
  split
  · exact unknownType_frame s
  · rename_i k e _
    refine PipelineFrame.trans (t := s.setK (some k)) (by simp [PipelineFrame]) ?_
    exact orElse_frame ((dpLen_frame k e _).trans (dpUnpack_frame k e _)) (dpHandoff_frame k)

/-- `DP.RUN` leaves the framer's registers, the tables, the latch and the environment alone, and only adds to the trace. -/
theorem dpRun_frame (s : State) : PipelineFrame s (dpRun s).1 :=
  orElse_frame (dpPoll_frame s) fun s => orElse_frame (dpShort_frame s) fun s =>
    orElse_frame ((hdParse_frame s).trans (dpReq_frame _)) fun s =>
      orElse_frame (dpCksum_frame s) dpLookupAndDecode_frame

end Sys2Proof.Machine
end

