-- ==== Sys2Proof/Tests/Slice0.lean ====
section
/-! SUPPORT. Tests on fixed values. Expected values come from the spec: the vectors of 95_test_vectors.md (named F, K, D, U, X
and P as there), the tables of 30_encoding.md, or a rule named in the comment. The checksum table `T0` is the candidate of
93_implementation_defined.md G1, the catalog `CAT-T` that of 95_test_vectors.md; both are test inputs only. -/

namespace Sys2Proof.Tests

open Sys2Proof Sys2Proof.Machine

/-! ### Test inputs -/

def t0Low : List Byte :=
  [0x00, 0x02, 0x04, 0x06, 0x08, 0x0A, 0x0C, 0x0E, 0x10, 0x12, 0x14, 0x16, 0x18, 0x1A, 0x1C, 0x1E] ++
  [0x20, 0x22, 0x24, 0x26, 0x28, 0x2A, 0x2C, 0x2E, 0x30, 0x32, 0x34, 0x36, 0x38, 0x3A, 0x3C, 0x3E] ++
  [0x40, 0x42, 0x44, 0x46, 0x48, 0x4A, 0x4C, 0x4E, 0x50, 0x52, 0x54, 0x56, 0x58, 0x5A, 0x5C, 0x5E] ++
  [0x60, 0x62, 0x64, 0x66, 0x68, 0x6A, 0x6C, 0x6E, 0x70, 0x72, 0x74, 0x76, 0x78, 0x7A, 0x7C, 0x7E] ++
  [0x80, 0x82, 0x84, 0x86, 0x88, 0x8A, 0x8C, 0x8E, 0x90, 0x92, 0x94, 0x96, 0x98, 0x9A, 0x9C, 0x9E] ++
  [0xA0, 0xA2, 0xA4, 0xA6, 0xA8, 0xAA, 0xAC, 0xAE, 0xB0, 0xB2, 0xB4, 0xB6, 0xB8, 0xBA, 0xBC, 0xBE] ++
  [0xC0, 0xC2, 0xC4, 0xC6, 0xC8, 0xCA, 0xCC, 0xCE, 0xD0, 0xD2, 0xD4, 0xD6, 0xD8, 0xDA, 0xDC, 0xDE] ++
  [0xE0, 0xE2, 0xE4, 0xE6, 0xE8, 0xEA, 0xEC, 0xEE, 0xF0, 0xF2, 0xF4, 0xF6, 0xF8, 0xFA, 0xFC, 0xFE]

def t0High : List Byte :=
  [0x19, 0x1B, 0x1D, 0x1F, 0x11, 0x13, 0x15, 0x17, 0x09, 0x0B, 0x0D, 0x0F, 0x01, 0x03, 0x05, 0x07] ++
  [0x39, 0x3B, 0x3D, 0x3F, 0x31, 0x33, 0x35, 0x37, 0x29, 0x2B, 0x2D, 0x2F, 0x21, 0x23, 0x25, 0x27] ++
  [0x59, 0x5B, 0x5D, 0x5F, 0x51, 0x53, 0x55, 0x57, 0x49, 0x4B, 0x4D, 0x4F, 0x41, 0x43, 0x45, 0x47] ++
  [0x79, 0x7B, 0x7D, 0x7F, 0x71, 0x73, 0x75, 0x77, 0x69, 0x6B, 0x6D, 0x6F, 0x61, 0x63, 0x65, 0x67] ++
  [0x99, 0x9B, 0x9D, 0x9F, 0x91, 0x93, 0x95, 0x97, 0x89, 0x8B, 0x8D, 0x8F, 0x81, 0x83, 0x85, 0x87] ++
  [0xB9, 0xBB, 0xBD, 0xBF, 0xB1, 0xB3, 0xB5, 0xB7, 0xA9, 0xAB, 0xAD, 0xAF, 0xA1, 0xA3, 0xA5, 0xA7] ++
  [0xD9, 0xDB, 0xDD, 0xDF, 0xD1, 0xD3, 0xD5, 0xD7, 0xC9, 0xCB, 0xCD, 0xCF, 0xC1, 0xC3, 0xC5, 0xC7] ++
  [0xF9, 0xFB, 0xFD, 0xFF, 0xF1, 0xF3, 0xF5, 0xF7, 0xE9, 0xEB, 0xED, 0xEF, 0xE1, 0xE3, 0xE5, 0xE7]

/-- `T0` (93 G1). -/
def t0 : CkTable := ⟨t0Low ++ t0High, by decide +kernel⟩

/-- An injective table: the identity. -/
def idTable : CkTable := ⟨List.ofFn BitVec.ofFin, List.length_ofFn⟩

/-- A table that is not injective: all entries 0. -/
def zeroTable : CkTable := ⟨List.replicate 256 0, List.length_replicate⟩

def entry0 : Entry := ⟨0x1A, "setpoints", some "k0", 4, [.u8, .u8, .u8, .u8], by decide⟩
def entry1 : Entry := ⟨0x18, "mixed", none, 8, [.s16, .u8, .skip 1, .str 2, .u16], by decide⟩
def entry2 : Entry := ⟨0x1A, "shadow", some "k2", 2, [.u16], by decide⟩

/-- `CAT-T` (95). -/
def catT : List Entry := [entry0, entry1, entry2]

/-- The state after reset with the test tables. -/
def base : State := { State.reset with cfg := ⟨t0, catT, none, false, 0⟩ }

/-- The same with a finite buffer capacity. -/
def small (cap : Nat) : State := { State.reset with cfg := ⟨t0, catT, some cap, false, 0⟩ }

/-- `base` with a telegram in `TG`. -/
def holding (t : Telegram) : State := { base with tg := t }

/-- `base` in a framer state with bytes in the buffer. -/
def framing (fs : FState) (buf : List Byte) : State := { base with fs := fs, buf := buf }

/-- The answer is a next state of which `p` holds. -/
def gives (a : Answer) (p : State → Bool) : Bool :=
  match a with
  | .next t => p t
  | .fault _ | .refused _ => false

/-- Telegram D7 of 95_test_vectors.md. -/
def telD7 : Telegram := [0x08, 0x00, 0x1A, 0x00, 0x4B, 0x28, 0x00, 0x00, 0xC5]

/-- Telegram D14 of 95_test_vectors.md. -/
def telD14 : Telegram := [0x08, 0x00, 0x18, 0x00, 0xFF, 0x38, 0x07, 0xAA, 0x4F, 0x4B, 0x12, 0x34, 0x4C]

def hdrD7 : Header := ⟨0x08, 0, 0x00, 0x1A, 0x00⟩

/-! ### Well-formedness: an ill-formed term for each check -/

theorem test_wf_frNData : (Instr.frNData 0xFF).wf = false := by decide
theorem test_wf_frSBad : (Instr.frSBad 0x00).wf = false ∧ (Instr.frSBad 0xFF).wf = false := by decide
theorem test_wf_frZPerr : (Instr.frZPerr 0x00).wf = false ∧ (Instr.frZPerr 0xFF).wf = true := by decide
theorem test_wf_counts :
    (Instr.upStr 256).wf = false ∧ (Instr.upSkip 256).wf = false ∧ (Instr.upStr 255).wf = true ∧
      (Instr.upUnpack [.u8, .str 256] []).wf = false := by decide
theorem test_wf_pxBit :
    (Instr.pxBit (.u8 5) 256).wf = false ∧ (Instr.pxBit (.str [5]) 1).wf = false ∧
      (Instr.pxBit (.u16 5) 0xFFFF).wf = true := by decide
theorem test_wf_pxWide32 :
    (Instr.pxWide32 (.s16 1) (.u16 1)).wf = false ∧ (Instr.pxWide32 (.u16 1) (.u8 1)).wf = false := by decide
theorem test_wf_pxSent :
    (Instr.pxSent (.s8 0) 128).wf = false ∧ (Instr.pxSent (.u16 0) (-1)).wf = false ∧
      (Instr.pxSent (.str []) 0).wf = false ∧ (Instr.pxSent (.s16 0) (-32768)).wf = true := by decide
theorem test_wf_pxScale : (Instr.pxScale 1 0 1).wf = false ∧ (Instr.pxScale 1 1 0).wf = false := by decide
theorem test_wf_entry :
    entryWf 4 [.u8, .u16] = false ∧ entryWf 256 [.str 256] = false ∧ entryWf 255 [.str 255] = true := by decide

/-! ### Decoding: words written out from the tables of R72, R80, R85 and the picture of R74 -/

theorem test_decode_frkey :
    decodeTableWord 16 0b0011111111 = some .frNMark ∧ decodeTableWord 16 0b0000000000 = some (.frNData 0x00) ∧
      decodeTableWord 16 0b0100000000 = some .frSZero ∧ decodeTableWord 16 0b0111111111 = some .frSLit ∧
      decodeTableWord 16 0b0100000101 = some (.frSBad 0x05) ∧ decodeTableWord 16 0b1000000000 = some .frZBreak ∧
      decodeTableWord 16 0b1011111111 = some (.frZPerr 0xFF) ∧ decodeTableWord 16 0b1111111111 = none := by decide
theorem test_decode_slot16 :
    decodeTableWord 16 0b0100001000000001 = some .upU8 ∧ decodeTableWord 16 0b0110001000000001 = some .upS8 ∧
      decodeTableWord 16 0b0100100000000001 = some .upU16 ∧ decodeTableWord 16 0b0110100000000001 = some .upS16 ∧
      decodeTableWord 16 0b0111001100000010 = some (.upStr 2) ∧
      decodeTableWord 16 0b0111100011111111 = some (.upSkip 255) ∧ decodeTableWord 16 0b0100001000000010 = none := by
  decide
theorem test_decode_opid_ck :
    decodeTableWord 8 0b00000000 = some (.frStep 0) ∧ decodeTableWord 8 0b00010000 = some .ckInit ∧
      decodeTableWord 8 0b00010001 = some (.ckUpdate 0) ∧ decodeTableWord 8 0b00010010 = some (.ckCompute []) ∧
      decodeTableWord 8 0b00010011 = some .ckCheck ∧ decodeTableWord 8 0b00000001 = none := by decide
theorem test_decode_opid_dp :
    decodeTableWord 8 0b00100000 = some .dpRun ∧ decodeTableWord 8 0b00100001 = some .dpPoll ∧
      decodeTableWord 8 0b00100010 = some .dpShort ∧ decodeTableWord 8 0b00100011 = some .hdParse ∧
      decodeTableWord 8 0b00100100 = some .dpReq ∧ decodeTableWord 8 0b00100101 = some .dpCksum ∧
      decodeTableWord 8 0b00100110 = some .catLookup ∧ decodeTableWord 8 0b00100111 = some .dpLen ∧
      decodeTableWord 8 0b00101000 = some .dpUnpack ∧ decodeTableWord 8 0b00101001 = some .dpHandoff := by decide
theorem test_decode_opid_px :
    decodeTableWord 8 0b00110000 = some (.upUnpack [] []) ∧ decodeTableWord 8 0b01000000 = some (.pxBit (.u16 0) 0) ∧
      decodeTableWord 8 0b01000001 = some (.pxWide32 (.u16 0) (.u16 0)) ∧
      decodeTableWord 8 0b01000010 = some (.pxBitmap []) ∧ decodeTableWord 8 0b01000011 = some (.pxSent (.u16 0) 0) ∧
      decodeTableWord 8 0b01000100 = some (.pxScale 0 1 1) ∧ decodeTableWord 8 0b01111111 = some .reset := by decide
/-- The header of telegram D4 (95): `SRC = 0B`, request, `DST = 08`, `TYP = 1A`. -/
theorem test_decode_hdr32 :
    decodeTableWord 32 0b00001011100010000001101000000000 = some (.hdHeader ⟨0x0B, 1, 0x08, 0x1A, 0x00⟩) := by decide
/-- R82, R83: the text's letters, repeat counts, byte lengths, blanks, the optional prefix, and texts outside the grammar. -/
theorem test_layout_text :
    parseLayout ['>', 'h', 'B', 'x', '2', 's', 'H'] = some [.s16, .u8, .skip 1, .str 2, .u16] ∧
      parseLayout ['3', 'B', ' ', 'b'] = some [.u8, .u8, .u8, .s8] ∧ parseLayout ['0', 'H'] = some [] ∧
      parseLayout ['0', 's'] = some [.str 0] ∧ parseLayout ['2', '5', '6', 'x'] = none ∧ parseLayout ['3'] = none ∧
      parseLayout ['i'] = none := by decide
/-- R80: a layout is its descriptors in order; one reserved descriptor spoils it (R81). -/
theorem test_layout_descriptors :
    decodeLayout [0x6801, 0x4201, 0x7801, 0x7302, 0x4801] = some [.s16, .u8, .skip 1, .str 2, .u16] ∧
      decodeLayout [0x4201, 0x4202] = none := by decide
/-- The instance of the round-trip law in 95_test_vectors.md 2.1. -/
theorem test_stuff : stuff [0x10, 0xFF, 0x20] = [0x10, 0xFF, 0xFF, 0x20, 0xFF, 0x00, 0x00] ∧ stuff [] = [0xFF, 0x00, 0x00] := by
  decide
/-- The codes of R230. -/
theorem test_diag_codes :
    [DiagKind.malformedMarker, .tooShort, .badChecksum, .unknownType, .lengthMismatch, .layoutMismatch, .parityGlitch,
      .requestSkipped].map diagCode = [1, 2, 3, 4, 5, 6, 7, 8] := by decide

/-! ### The framer -/

/-- F8: a marker byte alone is held in `FS`. -/
theorem test_frNMark : gives (exec .frNMark (framing .normal [0x10])) (fun t => t.fs == .markSeen && t.buf == [0x10]) := by
  decide +kernel
/-- F12: a zero outside a marker is data. -/
theorem test_frNData : gives (exec (.frNData 0x00) (framing .normal [0x00])) (fun t => t.fs == .normal && t.buf == [0x00, 0x00]) := by
  decide +kernel
/-- F9. -/
theorem test_frSZero : gives (exec .frSZero (framing .markSeen [0x10])) (fun t => t.fs == .markZero && t.buf == [0x10]) := by
  decide +kernel
/-- F2. -/
theorem test_frSLit : gives (exec .frSLit (framing .markSeen [0x10])) (fun t => t.fs == .normal && t.buf == [0x10, 0xFF]) := by
  decide +kernel
/-- F4: both bytes are discarded. -/
theorem test_frSBad :
    gives (exec (.frSBad 0x05) (framing .markSeen [0x10]))
      (fun t => t.fs == .normal && t.buf == [0x10] && t.trace == [.diag .malformedMarker [5]]) := by decide +kernel
/-- F6: the empty telegram is emitted and is too short. -/
theorem test_frZBreak_empty :
    gives (exec .frZBreak (framing .markZero [])) (fun t => t.trace == [.telegram [], .diag .tooShort [0]]) := by
  decide +kernel
/-- V-E1: the break decodes the buffer in the same step. -/
theorem test_frZBreak_decodes :
    gives (exec .frZBreak (framing .markZero telD7)) (fun t => t.buf == [] && t.fs == .normal &&
      t.trace == [.telegram telD7, .raw 0 hdrD7 [.u8 75, .u8 40, .u8 0, .u8 0] true]) := by decide +kernel
/-- F5: `FF` after `FF 00` is data. -/
theorem test_frZPerr :
    gives (exec (.frZPerr 0xFF) (framing .markZero [0x10]))
      (fun t => t.fs == .normal && t.buf == [0x10, 0xFF] && t.trace == [.diag .parityGlitch [255]]) := by decide +kernel
/-- The overflow vectors of 95_test_vectors.md 2.1, `BUF_CAP = 2`: the third append faults. -/
theorem test_overflow :
    exec (.frNData 0x30) { small 2 with buf := [0x10, 0x20] } = .fault .bufferOverflow ∧
      exec .frSLit { small 2 with buf := [0x10, 0x20] } = .fault .bufferOverflow ∧
      exec (.frZPerr 0x07) { small 2 with buf := [0x10, 0x20] } = .fault .bufferOverflow := ⟨rfl, rfl, rfl⟩
/-- F16: `FR.STEP` continues from `MARK_ZERO`. -/
theorem test_frStep :
    gives (exec (.frStep 0x07) (framing .markZero [0x10]))
      (fun t => t.fs == .normal && t.buf == [0x10, 0x07] && t.trace == [.diag .parityGlitch [7]]) := by decide +kernel

/-! ### The checksum -/

/-- R130. -/
theorem test_ckInit : gives (exec .ckInit { base with acc := 0x77 }) (fun t => t.acc == 0) := by decide +kernel
/-- K10, the second byte: `T0[FF] XOR FF = 18`. -/
theorem test_ckUpdate : gives (exec (.ckUpdate 0xFF) { base with acc := 0xFF }) (fun t => t.acc == 0x18) := by decide +kernel
/-- K7 and K8: the order of the bytes matters. -/
theorem test_ckCompute :
    gives (exec (.ckCompute [0x01, 0x00]) base) (fun t => t.res == .byte 0x02) = true ∧
      gives (exec (.ckCompute [0x00, 0x01]) base) (fun t => t.res == .byte 0x01) = true := by decide +kernel
/-- The examples of R133. -/
theorem test_ckCheck :
    gives (exec .ckCheck (holding telD7)) (fun t => t.res == .verdict .valid) = true ∧
      gives (exec .ckCheck (holding [0x08, 0x00, 0x1A, 0x00, 0x4B, 0x28, 0x00, 0x00, 0xC4]))
        (fun t => t.res == .verdict .invalid && t.acc == 0xC5) = true := by decide +kernel
/-- R133: `[a c]` is valid exactly when `c = T0[0] XOR a`. The vector `08 10 valid` of 95_test_vectors.md 2.2 says otherwise
and is not followed (notes/assumptions/30.md). -/
theorem test_ckCheck_two_bytes :
    gives (exec .ckCheck (holding [0x08, 0x08])) (fun t => t.res == .verdict .valid) = true ∧
      gives (exec .ckCheck (holding [0x08, 0x10])) (fun t => t.res == .verdict .invalid) = true := by decide +kernel
theorem test_ckCheck_refused : exec .ckCheck (holding [0x08]) = .refused .telegramTooShortToCheck := rfl

/-! ### The pipeline -/

/-- D14. -/
theorem test_dpRun_decoded :
    gives (exec .dpRun (holding telD14)) (fun t => t.res == .pipeline (some .decoded) &&
      t.trace == [.raw 1 ⟨0x08, 0, 0x00, 0x18, 0x00⟩ [.s16 (-200), .u8 7, .str [0x4F, 0x4B], .u16 4660] true]) := by
  decide +kernel
/-- D4b: a request's checksum is not looked at. -/
theorem test_dpRun_request :
    gives (exec .dpRun (holding [0x0B, 0x88, 0x1A, 0x00, 0x04, 0x00])) (fun t => t.res == .pipeline (some .request) &&
      t.trace == [.diag .requestSkipped [0x0B, 0x08, 0x1A, 0x00]]) := by decide +kernel
/-- D1, and a telegram of 2 bytes. -/
theorem test_dpPoll :
    gives (exec .dpPoll (holding [0x8B])) (fun t => t.res == .pipeline (some .poll) && t.trace == []) = true ∧
      gives (exec .dpPoll (holding [0x8B, 0x00])) (fun t => t.res == .pipeline none) = true := by decide +kernel
/-- D3, and D10 at the least parsed length. -/
theorem test_dpShort :
    gives (exec .dpShort (holding [0x4B, 0x28, 0x00, 0x00, 0xC5])) (fun t => t.trace == [.diag .tooShort [5]]) = true ∧
      gives (exec .dpShort (holding [0x08, 0x00, 0x1A, 0x00, 0xFF, 0x17])) (fun t => t.res == .pipeline none) = true := by
  decide +kernel
/-- The two examples of R153. -/
theorem test_hdParse :
    gives (exec .hdParse (holding telD7)) (fun t => t.hdr == ⟨0x08, 0x00, 0, 0x00, 0x1A, 0x00, 4⟩) = true ∧
      gives (exec .hdParse (holding [0x0B, 0x88, 0x1A, 0x00, 0x04, 0xF8]))
        (fun t => t.hdr == ⟨0x0B, 0x88, 1, 0x08, 0x1A, 0x00, 1⟩) = true := by decide +kernel
theorem test_hdParse_refused : exec .hdParse (holding [0, 0, 0, 0, 0]) = .refused .telegramTooShortToParse := rfl
/-- D4. -/
theorem test_dpReq :
    gives (exec .dpReq { base with hdr := ⟨0x0B, 0x88, 1, 0x08, 0x1A, 0x00, 1⟩ })
      (fun t => t.trace == [.diag .requestSkipped [0x0B, 0x08, 0x1A, 0x00]]) := by decide +kernel
/-- D5 and D6. -/
theorem test_dpCksum :
    gives (exec .dpCksum (holding [0x08, 0x00, 0x1A, 0x00, 0x4B, 0x28, 0x00, 0x00, 0xC4]))
        (fun t => t.trace == [.diag .badChecksum [0xC5, 0xC4]]) = true ∧
      gives (exec .dpCksum (holding [0x08, 0x00, 0x99, 0x00, 0x01, 0xD7])) (fun t => t.res == .pipeline none) = true := by
  decide +kernel
/-- D7: entry 0, not entry 2; and the miss of D6. -/
theorem test_catLookup :
    gives (exec .catLookup { base with hdr := ⟨0x08, 0, 0, 0, 0x1A, 0, 4⟩ }) (fun t => t.k == some 0) = true ∧
      gives (exec .catLookup { base with hdr := ⟨0x08, 0, 0, 0, 0x99, 0, 1⟩ })
        (fun t => t.k == none && t.trace == [.diag .unknownType [0x99]]) = true := by decide +kernel
/-- D8 and D7, step 7. -/
theorem test_dpLen :
    gives (exec .dpLen { base with k := some 0, hdr := ⟨0x08, 0, 0, 0, 0x1A, 0, 7⟩ })
        (fun t => t.lenwarn && t.trace == [.diag .lengthMismatch [0, 7, 4]]) = true ∧
      gives (exec .dpLen { base with k := some 0, hdr := ⟨0x08, 0, 0, 0, 0x1A, 0, 4⟩ })
        (fun t => !t.lenwarn && t.trace == []) = true := by decide +kernel
/-- D9, step 8: nothing is kept of the three bytes that fit. -/
theorem test_dpUnpack :
    gives (exec .dpUnpack { holding [0x08, 0x00, 0x1A, 0x00, 0x4B, 0x28, 0x00, 0xEE] with
        k := some 0, hdr := ⟨0x08, 0, 0, 0, 0x1A, 0, 3⟩ })
      (fun t => t.f == [] && t.trace == [.diag .layoutMismatch [0, 3, 4]]) := by decide +kernel
/-- D8, steps 9 and 10: the warning becomes `len_ok = false`. -/
theorem test_dpHandoff :
    gives (exec .dpHandoff { base with k := some 0, hdr := ⟨0x08, 0, 0, 0, 0x1A, 0, 7⟩, lenwarn := true, f := [.u8 75] })
      (fun t => t.trace == [.raw 0 hdrD7 [.u8 75] false]) := by decide +kernel
theorem test_noCatalogEntry :
    exec .dpLen base = .refused .noCatalogEntry ∧ exec .dpUnpack base = .refused .noCatalogEntry ∧
      exec .dpHandoff base = .refused .noCatalogEntry := ⟨rfl, rfl, rfl⟩
/-- The header pattern of D4 (R74), with no telegram and with one of 6 bytes. -/
theorem test_hdHeader :
    gives (exec (.hdHeader ⟨0x0B, 1, 0x08, 0x1A, 0x00⟩) (holding [0x0B, 0x88, 0x1A, 0x00, 0x04, 0xF8]))
      (fun t => t.hdr == ⟨0x0B, 0x88, 1, 0x08, 0x1A, 0x00, 1⟩) := by decide +kernel

/-! ### The unpacker: a slot at offset 1 of the payload of a telegram -/

/-- U-1. -/
theorem test_upU8 :
    gives (exec .upU8 { holding [0, 0, 0, 0, 0x11, 0xFF, 0] with cur := 1 }) (fun t => t.res == .field (.u8 255) && t.cur == 2) := by
  decide +kernel
/-- U-2. -/
theorem test_upS8 :
    gives (exec .upS8 { holding [0, 0, 0, 0, 0x11, 0x80, 0] with cur := 1 }) (fun t => t.f.map fieldValue == [some (-128)]) := by
  decide +kernel
/-- U-3 at an odd offset (R55), and U-12 with the checksum byte behind (R56). -/
theorem test_upU16 :
    gives (exec .upU16 { holding [0, 0, 0, 0, 0x11, 0x12, 0x34, 0] with cur := 1 }) (fun t => t.f == [.u16 4660] && t.cur == 3) = true ∧
      gives (exec .upU16 (holding [0, 0, 0, 0, 0x12, 0x34])) (fun t => t.f == [] && t.res == .layoutMismatch) = true := by
  decide +kernel
/-- U-4. -/
theorem test_upS16 :
    gives (exec .upS16 (holding [0, 0, 0, 0, 0xFF, 0x38, 0])) (fun t => t.f.map fieldValue == [some (-200)]) := by
  decide +kernel
/-- U-5 and U-6. -/
theorem test_upStr :
    gives (exec (.upStr 2) (holding [0, 0, 0, 0, 0x4F, 0x4B, 0])) (fun t => t.f == [.str [0x4F, 0x4B]]) = true ∧
      gives (exec (.upStr 0) (holding [])) (fun t => t.f == [.str []]) = true := by decide +kernel
/-- U-7 and U-13. -/
theorem test_upSkip :
    gives (exec (.upSkip 2) (holding [0, 0, 0, 0, 0xAA, 0xBB, 0])) (fun t => t.f == [] && t.cur == 2) = true ∧
      gives (exec (.upSkip 1) { holding [0, 0, 0, 0, 0x12, 0] with cur := 1 }) (fun t => t.res == .layoutMismatch) = true := by
  decide +kernel
/-- U-8 and U-11. -/
theorem test_upUnpack :
    gives (exec (.upUnpack [.s16, .u8, .skip 1, .str 2, .u16] [0xFF, 0x38, 0x07, 0xAA, 0x4F, 0x4B, 0x12, 0x34]) base)
        (fun t => t.res == .fields [.s16 (-200), .u8 7, .str [0x4F, 0x4B], .u16 4660]) = true ∧
      gives (exec (.upUnpack [.u8, .u8, .u8, .u8] [0x4B, 0x28, 0x00]) base) (fun t => t.res == .layoutMismatch) = true := by
  decide +kernel

/-! ### The post-extraction operators -/

/-- X3 and X5. -/
theorem test_pxBit :
    gives (exec (.pxBit (.u8 5) 6) base) (fun t => t.res == .bool true) = true ∧
      gives (exec (.pxBit (.s8 (-128)) 0x80) base) (fun t => t.res == .bool true) = true := by decide +kernel
/-- X2, X4. -/
theorem test_pxBit_false :
    gives (exec (.pxBit (.u8 5) 2) base) (fun t => t.res == .bool false) = true ∧
      gives (exec (.pxBit (.u8 0xFF) 0) base) (fun t => t.res == .bool false) = true := by decide +kernel
/-- X7. -/
theorem test_pxWide32 :
    gives (exec (.pxWide32 (.u16 1) (.u16 0x86A0)) base) (fun t => t.res == .wide 100000) := by decide +kernel
/-- X10. -/
theorem test_pxBitmap : gives (exec (.pxBitmap [0x05, 0x80]) base) (fun t => t.res == .indices [0, 2, 15]) := by decide +kernel
/-- X11 and X12. -/
theorem test_pxBitmap_parameters :
    bitmap true 0 [0x05, 0x80] = [5, 7, 8] ∧ bitmap false 1 [0x05, 0x80] = [1, 3, 16] := by decide
/-- R212: one byte string, or `u8` fields in order. -/
theorem test_bitmapSource :
    bitmapSource [.str [0x05, 0x80]] = some [0x05, 0x80] ∧ bitmapSource [.u8 5, .u8 0x80] = some [0x05, 0x80] ∧
      bitmapSource [.u8 5, .s8 0] = none := by decide
/-- X14 and X17. -/
theorem test_pxSent :
    gives (exec (.pxSent (.s16 (-32768)) (-32768)) base) (fun t => t.res == .sent .absent) = true ∧
      gives (exec (.pxSent (.s16 31999) 32000) base) (fun t => t.res == .sent (.present (.s16 31999))) = true := by
  decide +kernel
/-- X18 and X19. -/
theorem test_pxScale :
    gives (exec (.pxScale 235 1 10) base) (fun t => t.res == .ratio (mkRat 47 2)) = true ∧
      gives (exec (.pxScale (-200) 1 10) base) (fun t => t.res == .ratio (-20)) = true := by decide +kernel
/-- X23 and X24, and R84, 93 U15: a byte string and a denominator 0 are refused. -/
theorem test_sentThenScale :
    gives (sentThenScale (.s16 (-32768)) (-32768) 1 10 base) (fun t => t.res == .sent .absent) = true ∧
      gives (sentThenScale (.s16 235) (-32768) 1 10 base) (fun t => t.res == .ratio (mkRat 47 2)) = true ∧
      sentThenScale (.str [0x80, 0x00]) (-32768) 1 10 base = .refused .sentinelOutsideDomain ∧
      sentThenScale (.s16 235) (-32768) 1 0 base = .refused .scaleOutsideDomain :=
  ⟨by decide +kernel, by decide +kernel, rfl, rfl⟩

/-! ### Reset and the step -/

/-- R260: a partial telegram and a pending marker go without an event; the tables stay. -/
theorem test_reset :
    gives (exec .reset { framing .markSeen [0x10] with trace := [.telegram []] })
      (fun t => t.fs == .normal && t.buf == [] && t.trace == [] && t.cfg.catalog == catT) := by decide +kernel
/-- One byte is consumed, and only one. -/
theorem test_step_consumes_one_byte :
    gives (step { base with input := [0x10, 0x20] }) (fun t => t.input == [0x20] && t.buf == [0x10]) := by decide +kernel
/-- R112: with no byte the step waits. -/
theorem test_step_waits : step base = .next base := rfl
/-- R72: a key with state code 3, put on the operation port. -/
theorem test_step_illegal_state : step (base.withFetchWord 16 0x300) = .fault .illegalFramerState := rfl
/-- R81: a reserved descriptor, put on the operation port. -/
theorem test_step_reserved_descriptor : step (base.withFetchWord 16 0x4202) = .refused .reservedSlotDescriptor := rfl
/-- A key, an identifier and a header pattern are fetched and run after reset. -/
theorem test_withFetchWord :
    gives (step (State.reset.withFetchWord 16 0x0FF)) (fun t => t.fs == .markSeen) = true ∧
      gives (step (State.reset.withFetchWord 8 0x10)) (fun t => t.acc == 0) = true ∧
      gives (step (State.reset.withFetchWord 32 0x0B881A00)) (fun t => t.hdr.dst == 8 && t.hdr.rq == 1) = true := by
  decide +kernel

/-! ### Witnesses: for every obligation with hypotheses, a state and operands that meet them together, clause by clause, at
the boundary values of a clause -/

theorem test_witness_StepRunsTheDecodedOperation :
    (State.call { base with input := [0xFF] } = none ∧ State.input { base with input := [0xFF] } = 0xFF :: [] ∧
      decodeKey (framerKey base.fs 0xFF) = some .frNMark) ∧
    (State.call { base with call := some ⟨[0x7F], {}⟩ } = some ⟨[0x7F], {}⟩ ∧ decode [0x7F] {} = .ok .reset) ∧
    (base.call = none ∧ base.input = []) ∧
    (decode [0x03, 0x00] {} = .error .illegalFramerState ∧ decode [0x03, 0xFF] {} = .error .illegalFramerState) ∧
    (decode [0x04, 0x00] {} = .error .reservedSlotDescriptor ∧ decode [0xFF, 0xFF] {} = .error .reservedSlotDescriptor) ∧
    decode [0x01] {} = .error .unknownOperation ∧
    (decode [] {} = .error .unknownWordLength ∧ decode [0, 0, 0] {} = .error .unknownWordLength ∧
      decode [0, 0, 0, 0, 0] {} = .error .unknownWordLength) := by
  refine ⟨⟨rfl, rfl, by decide⟩, ⟨rfl, by rfl⟩, ⟨rfl, rfl⟩, ⟨by rfl, by rfl⟩, ⟨by rfl, by rfl⟩, by rfl, by rfl, by rfl, by rfl⟩

theorem test_witness_FrStepTakesTheOneTransition :
    base.cfg.bufCap = none ∧
      (let s' : State := { base with acc := 1, tg := [1], input := [2], trace := [.telegram []] }
       base.fs = s'.fs ∧ base.buf = s'.buf ∧ base.cfg.ckTable = s'.cfg.ckTable ∧ base.cfg.catalog = s'.cfg.catalog ∧
         base.cfg.bufCap = s'.cfg.bufCap) ∧
      exec (.frStep 0xFF) base = .next { base with fs := .markSeen } ∧
      exec (.frStep 0x00) (small 0) = .fault .bufferOverflow := ⟨rfl, ⟨rfl, rfl, rfl, rfl, rfl⟩, rfl, rfl⟩

theorem test_witness_KeyTableIsTotalAndUnambiguous :
    0x300 ≤ (0x300 : BitVec 10).toNat ∧ 0x300 ≤ (0x3FF : BitVec 10).toNat := by decide

theorem test_witness_ByteStepStopsOnlyOnAFullBuffer :
    (base.call = none ∧ base.cfg.bufCap = none) ∧ ((small 1).call = none ∧ (small 1).cfg.bufCap ≠ some (small 1).buf.length) ∧
      (State.call { small 0 with input := [0x10] } = none ∧ step { small 0 with input := [0x10] } = .fault .bufferOverflow) :=
  ⟨⟨rfl, rfl⟩, ⟨rfl, by decide⟩, rfl, rfl⟩

/-- The key of each transition, for the clauses of the same statement, and a full buffer. -/
theorem test_witness_ByteStepStopsOnlyOnAFullBuffer_keys :
    decodeKey (framerKey .normal 0xFF) = some .frNMark ∧ decodeKey (framerKey .markSeen 0x00) = some .frSZero ∧
      decodeKey (framerKey .markSeen 0x01) = some (.frSBad 0x01) ∧ decodeKey (framerKey .markZero 0x00) = some .frZBreak ∧
      decodeKey (framerKey .normal 0xFE) = some (.frNData 0xFE) ∧ decodeKey (framerKey .markSeen 0xFF) = some .frSLit ∧
      decodeKey (framerKey .markZero 0xFF) = some (.frZPerr 0xFF) ∧ (small 0).cfg.bufCap = some (small 0).buf.length := by
  refine ⟨by decide, by decide, by decide, by decide, by decide, by decide, by decide, rfl⟩

/-- For `DataByteInNormalIsAppended`, `DoubledMarkerAppendsOneLiteral`, `ParityMarkedByteIsAppended`: the least and greatest
byte of each, and a buffer one short of its capacity and at it. -/
theorem test_witness_appends :
    ((0x00 : Byte) ≠ 0xFF ∧ (0xFE : Byte) ≠ 0xFF ∧ (0x01 : Byte) ≠ 0x00 ∧ (0xFF : Byte) ≠ 0x00) ∧
      (small 2).cfg.bufCap ≠ some (State.buf { small 2 with buf := [0x10] }).length ∧
      (small 2).cfg.bufCap = some (State.buf { small 2 with buf := [0x10, 0x20] }).length :=
  ⟨by decide, by decide, rfl⟩

theorem test_witness_MalformedMarkerIsDiscarded :
    ((0x01 : Byte) ≠ 0x00 ∧ (0x01 : Byte) ≠ 0xFF) ∧ ((0xFE : Byte) ≠ 0x00 ∧ (0xFE : Byte) ≠ 0xFF) := by decide

theorem test_witness_StuffedTelegramIsFramedWhole :
    let s := { small 2 with input := stuff [0xFF, 0x00] ++ [0x30] }
    s.call = none ∧ s.fs = .normal ∧ s.buf = [] ∧ s.input = stuff [0xFF, 0x00] ++ [0x30] ∧
      ∀ cap, s.cfg.bufCap = some cap → [0xFF, 0x00].length ≤ cap :=
  ⟨rfl, rfl, rfl, rfl, fun _ h => by cases h; decide⟩

theorem test_witness_ConsumedBytesAreAccountedFor :
    let s := { framing .markSeen [0x10] with input := [0x00] }
    s.call = none ∧ s.input = 0x00 :: [] ∧ step s = .next { s with input := [], fs := .markZero } := ⟨rfl, rfl, rfl⟩

theorem test_witness_RawEventFollowsItsTelegram :
    let s := { framing .markZero telD7 with input := [0x00] }
    s.call = none ∧ gives (step s) (fun t => t.trace.countP isRaw == 1) = true := ⟨rfl, by decide +kernel⟩

theorem test_witness_CheckComparesTheSumWithTheLastByte : 2 ≤ (holding [0x08, 0x08]).tg.length := by decide

theorem test_idTable (a : Byte) : idTable.get a = a := by revert a; decide +kernel

theorem test_witness_InjectiveTableDetectsAOneByteChange :
    TableInjective idTable ∧ (0x01 : Byte) ≠ 0x02 ∧ ckVerdict idTable ([] ++ 0x01 :: [] ++ [0x01]) = .valid :=
  ⟨fun a b h => by rwa [test_idTable, test_idTable] at h, by decide, by decide +kernel⟩

theorem test_witness_NonInjectiveTableMissesAOneByteChange : ¬TableInjective zeroTable :=
  fun h => absurd (h 0 1 (by decide +kernel)) (by decide)

theorem test_witness_ExactlyOneFinalByteIsValid : ([0x08] : List Byte) ≠ [] := by decide

theorem test_witness_HeaderParseFillsTheRegisters :
    (holding [0x0B, 0x88, 0x1A, 0x00, 0x04, 0xF8]).tg = 0x0B :: 0x88 :: 0x1A :: 0x00 :: [0x04, 0xF8] ∧
      2 ≤ ([0x04, 0xF8] : List Byte).length := ⟨rfl, by decide⟩

/-- For `PollIsSilent` and `ShortTelegramIsRejected`: lengths 0, 1, 2, 5, 6. -/
theorem test_witness_lengths :
    (holding [1]).tg.length = 1 ∧ (holding []).tg.length ≠ 1 ∧ (holding [1, 2]).tg.length ≠ 1 ∧ (holding []).tg.length < 6 ∧
      (holding [1, 2, 3, 4, 5]).tg.length < 6 ∧ 6 ≤ (holding [1, 2, 3, 4, 5, 6]).tg.length := by decide

theorem test_witness_RequestIsSkipped :
    (State.hdr { base with hdr := ⟨0, 0x80, 1, 0, 0, 0, 1⟩ }).rq = 1 ∧ base.hdr.rq = 0 := ⟨rfl, rfl⟩

theorem test_witness_BadChecksumDropsTheTelegram :
    ((holding [0x08, 0x08]).tg = [0x08] ++ [0x08] ∧ ([0x08] : List Byte) ≠ []) ∧
      ckCompute t0 [0x08] = 0x08 ∧ ckCompute t0 [0x08] ≠ 0x10 := ⟨⟨rfl, by decide⟩, by decide +kernel, by decide +kernel⟩

theorem test_witness_LookupTakesTheFirstMatch :
    let s := { base with hdr := ⟨0, 0, 0, 0, 0x18, 0, 0⟩ }
    (s.cfg.catalog[1]? = some entry1 ∧ entry1.id = s.hdr.typ ∧
      ∀ (j : Nat) (e' : Entry), j < 1 → s.cfg.catalog[j]? = some e' → e'.id ≠ s.hdr.typ) ∧
    ∀ e ∈ base.cfg.catalog, e.id ≠ base.hdr.typ := by
  refine ⟨⟨rfl, rfl, fun j e' hj h => ?_⟩, by simp [base, catT, entry0, entry1, entry2, State.reset, HeaderRegs.reset]⟩
  obtain rfl : j = 0 := by omega
  cases h
  decide

theorem test_witness_LengthMismatchOnlyWarns :
    let s := { base with k := some 1, hdr := ⟨0, 0, 0, 0, 0x18, 0, 8⟩ }
    s.k = some 1 ∧ s.cfg.catalog[1]? = some entry1 ∧ s.hdr.plen = entry1.expLen ∧ base.hdr.plen ≠ entry1.expLen :=
  ⟨rfl, rfl, rfl, by decide⟩

/-- A payload exactly as wide as the layout of entry 1, and one a byte shorter. -/
theorem test_witness_LayoutIsAppliedWholeOrNotAtAll :
    let s := { holding telD14 with k := some 1 }
    let s' := { holding telD14.dropLast with k := some 1 }
    s.k = some 1 ∧ s.cfg.catalog[1]? = some entry1 ∧ layoutWidth entry1.layout ≤ ((s.tg.drop 4).dropLast).length ∧
      s'.k = some 1 ∧ s'.cfg.catalog[1]? = some entry1 ∧ ((s'.tg.drop 4).dropLast).length < layoutWidth entry1.layout := by
  refine ⟨rfl, rfl, by decide, rfl, rfl, by decide⟩

theorem test_witness_HandoffEmitsTheRawFields : (State.k { base with k := some 0 }) = some 0 := rfl

theorem test_witness_PipelineEventsDependOnTelegramAndTables :
    (holding telD7).tg = (State.tg { holding telD7 with acc := 1, fs := .markSeen }) ∧
      (holding telD7).cfg.ckTable = (State.cfg { holding telD7 with acc := 1 }).ckTable ∧
      (holding telD7).cfg.catalog = (State.cfg { holding telD7 with acc := 1 }).catalog := ⟨rfl, rfl, rfl⟩

/-- D7 and D12 of 95_test_vectors.md: two senders, one type, one payload. -/
theorem test_witness_AddressesAndOffsetDecideNothing :
    ([0x4B, 0x28, 0x00, 0x00] : List Byte) ≠ [] ∧ (0x00 : Byte).getLsbD 7 = false ∧
      ckVerdict base.cfg.ckTable ([0x08, 0x00, 0x1A, 0x00] ++ [0x4B, 0x28, 0x00, 0x00] ++ [0xC5]) = .valid ∧
      ckVerdict base.cfg.ckTable ([0x88, 0x00, 0x1A, 0x00] ++ [0x4B, 0x28, 0x00, 0x00] ++ [0xD3]) = .valid ∧
      gives (exec .dpRun (holding ([0x08, 0x00, 0x1A, 0x00] ++ [0x4B, 0x28, 0x00, 0x00] ++ [0xC5])))
        (fun t => t.res == .pipeline (some .decoded)) = true ∧
      gives (exec .dpRun (holding ([0x88, 0x00, 0x1A, 0x00] ++ [0x4B, 0x28, 0x00, 0x00] ++ [0xD3])))
        (fun t => t.res == .pipeline (some .decoded)) = true := by decide +kernel

/-- D9 of 95_test_vectors.md. -/
theorem test_witness_LayoutMismatchFollowsLengthMismatch :
    gives (exec .dpRun (holding [0x08, 0x00, 0x1A, 0x00, 0x4B, 0x28, 0x00, 0xEE]))
      (fun t => t.res == .pipeline (some .layoutMismatch)) = true := by decide +kernel

theorem test_witness_HeaderPatternFillsTheRegisters :
    (holding (headerBytes hdrD7 ++ [0x04, 0xF8])).tg = headerBytes hdrD7 ++ [0x04, 0xF8] ∧
      2 ≤ ([0x04, 0xF8] : List Byte).length := ⟨rfl, by decide⟩

/-- The last offset at which each slot fits, and the first at which it does not. -/
theorem test_witness_slots :
    let s := { holding telD14 with cur := 7 }
    let s' := { holding telD14 with cur := 6 }
    ((s.tg.drop 4).dropLast)[s.cur]? = some 0x34 ∧ ((s'.tg.drop 4).dropLast)[s'.cur]? = some 0x12 ∧
      ((s'.tg.drop 4).dropLast)[s'.cur + 1]? = some 0x34 ∧ s'.cur + 2 ≤ ((s'.tg.drop 4).dropLast).length ∧
      s.cur + 0 ≤ ((s.tg.drop 4).dropLast).length ∧ ((s.tg.drop 4).dropLast).length < s.cur + Slot.u16.width := by
  decide

/-- For the statements about `UP.UNPACK`: a layout as wide as the payload, and one a byte wider. -/
theorem test_witness_layouts :
    layoutWidth [.u8, .skip 1] ≤ ([0x12, 0x13] : List Byte).length ∧ ([0x12] : List Byte).length < layoutWidth [.u8, .skip 1] ∧
      layoutWidth entry1.layout ≤ (((holding telD14).tg.drop 4).dropLast).length := by decide

theorem test_witness_BitTestIsAnyBitOfTheMask :
    (fieldPattern (.s8 0x80) = some 0x80 ∧ fieldBits (.s8 0x80) = some 8 ∧ 255 < 2 ^ 8) ∧
      fieldPattern (.u16 0x8000) = some 0x8000 ∧ fieldBits (.u16 0x8000) = some 16 ∧ 0 < 2 ^ 16 := by decide

/-- The least sentinel of an `s16` field, met and not met; the greatest of a `u8` field. -/
theorem test_witness_SentinelMapsToAbsent :
    (fieldValue (.s16 0x8000) = some (-32768) ∧ sentinelInDomain (.s16 0x8000) (-32768) = true) ∧
      (fieldValue (.s16 0x00EB) = some 235 ∧ sentinelInDomain (.s16 0x00EB) (-32768) = true ∧ (235 : Int) ≠ -32768) ∧
      fieldValue (.u8 0xFF) = some 255 ∧ sentinelInDomain (.u8 0xFF) 255 = true := by decide

theorem test_witness_ScaleIsExact : (0 : Int) < 1 ∧ (0 : Int) < 10 := by decide

/-- The sentinel, a value next to it, a scale at the edge of its domain and one outside, a sentinel out of range. -/
theorem test_witness_SentinelComesBeforeScale :
    (fieldValue (.s16 0x8000) = some (-32768) ∧ sentinelInDomain (.s16 0x8000) (-32768) = true) ∧
      (fieldValue (.s16 0x8001) = some (-32767) ∧ sentinelInDomain (.s16 0x8001) (-32768) = true ∧ (-32767 : Int) ≠ -32768) ∧
      ((0 : Int) < 1 ∧ (0 : Int) < 10) ∧ (0 : Int) ≤ 0 ∧ sentinelInDomain (.s16 0) (-32769) = false ∧
      sentinelInDomain (.str []) 0 = false := by decide

theorem test_witness_CallsOutsideTheDomainAreRefused :
    (holding []).tg.length < 2 ∧ (holding [1]).tg.length < 2 ∧ (holding [1, 2, 3, 4, 5]).tg.length < 6 ∧ base.k = none ∧
      maskInDomain (.u8 0) 256 = false ∧ isU16 (.s16 0) = false ∧ sentinelInDomain (.s8 0) 128 = false ∧
      sentinelInDomain (.s8 0) (-129) = false ∧ (0 : Int) ≤ 0 := by decide

theorem test_witness_TablesNeverChange :
    exec .ckInit base = .next { base with acc := 0 } ∧ step base = .next base := ⟨rfl, rfl⟩

theorem test_witness_EveryStepKeepsTheInvariant :
    let s := { small 2 with buf := [0x10], input := [0xFF], trace := [.diag .parityGlitch [1]], k := some 2 }
    s.Inv ∧ step s = .next { s with input := [], fs := .markSeen } :=
  ⟨⟨by decide, fun k h => by cases h; decide, by decide⟩, rfl⟩

theorem test_witness_TransientRegistersAreNeverRead :
    State.sameVisible base { base with acc := 0xFF, tg := [1], k := some 9, cur := 3, f := [.u8 1], lenwarn := true } ∧
      base.call = none ∧ step base = .next base ∧
      (State.sameVisible { small 0 with input := [1] } { small 0 with input := [1], acc := 1 } ∧
        step { small 0 with input := [1] } = .fault .bufferOverflow) :=
  ⟨⟨rfl, rfl, rfl, rfl, rfl, rfl⟩, rfl, rfl, ⟨rfl, rfl, rfl, rfl, rfl, rfl⟩, rfl⟩

theorem test_witness_DecodeOfEncodeIsTheOperation :
    (Instr.upStr 255).wf = true ∧ (Instr.frSBad 0x01).wf = true ∧ (Instr.pxScale (-1) 1 1).wf = true := by decide

theorem test_witness_LayoutDescriptorsAgree :
    layoutWf [.str 255, .skip 0] = true ∧ decodeSlot 0x73FF = some (.str 255) := by decide

end Sys2Proof.Tests
end

section
/-! SUPPORT. What the transitions of the framer can do, said once, and how many `EV_RAW` each part of a step emits. -/

namespace Sys2Proof.Machine

/-! ### The framer's transitions -/

/-- What consuming the byte `b` in state `s` may lead to, one case per row of the key table (R72, R101 to R107). -/
inductive FrTransition (s : State) (b : Byte) : State → Prop
  | nMark : s.fs = .normal → b = markerByte → FrTransition s b (s.setFs .markSeen)
  | nData : s.fs = .normal → b ≠ markerByte → s.cfg.bufCap ≠ some s.buf.length →
      FrTransition s b ((s.setBuf (s.buf ++ [b])).setFs .normal)
  | sZero : s.fs = .markSeen → b = zeroByte → FrTransition s b (s.setFs .markZero)
  | sLit : s.fs = .markSeen → b = markerByte → s.cfg.bufCap ≠ some s.buf.length →
      FrTransition s b ((s.setBuf (s.buf ++ [markerByte])).setFs .normal)
  | sBad : s.fs = .markSeen → b ≠ zeroByte → b ≠ markerByte →
      FrTransition s b ((s.raise .malformedMarker [b.toNat]).setFs .normal)
  | zBreak : s.fs = .markZero → b = zeroByte → FrTransition s b (dpRun (closeTelegram s)).1
  | zPerr : s.fs = .markZero → b ≠ zeroByte → s.cfg.bufCap ≠ some s.buf.length →
      FrTransition s b (((s.setBuf (s.buf ++ [b])).setFs .normal).raise .parityGlitch [b.toNat])

/-- An append that answers a next state found room, and goes on from the longer buffer (R108). -/
theorem append_thenNext_next {s t : State} {b : Byte} {g : State → State}
    (h : (s.append b).thenNext g = .next t) :
    s.cfg.bufCap ≠ some s.buf.length ∧ g (s.setBuf (s.buf ++ [b])) = t := by
  rw [append_eq] at h
  by_cases hfull : s.cfg.bufCap = some s.buf.length
  · rw [if_pos hfull] at h; cases h
  · rw [if_neg hfull] at h; cases h; exact ⟨hfull, rfl⟩

/-- `FR.STEP` answers a next state only by one of the seven transitions (R100). -/
theorem frStep_transition {s t : State} {b : Byte} (h : exec (.frStep b) s = .next t) : FrTransition s b t := by
  simp only [exec, execFrStep] at h
  cases hfs : s.fs with
  | normal =>
    simp only [hfs] at h
    by_cases hm : b = markerByte
    · rw [if_pos hm] at h; cases h; exact .nMark hfs hm
    · rw [if_neg hm, execFrNData, if_neg hm] at h
      obtain ⟨hroom, rfl⟩ := append_thenNext_next h
      exact .nData hfs hm hroom
  | markSeen =>
    simp only [hfs] at h
    by_cases hz : b = zeroByte
    · rw [if_pos hz] at h; cases h; exact .sZero hfs hz
    · by_cases hm : b = markerByte
      · rw [if_neg hz, if_pos hm] at h
        obtain ⟨hroom, rfl⟩ := append_thenNext_next h
        exact .sLit hfs hm hroom
      · rw [if_neg hz, if_neg hm, execFrSBad, if_neg (not_or.mpr ⟨hz, hm⟩)] at h
        cases h; exact .sBad hfs hz hm
  | markZero =>
    simp only [hfs] at h
    by_cases hz : b = zeroByte
    · rw [if_pos hz] at h; cases h; exact .zBreak hfs hz
    · rw [if_neg hz, execFrZPerr, if_neg hz] at h
      obtain ⟨hroom, rfl⟩ := append_thenNext_next h
      exact .zPerr hfs hz hroom

/-- With no call pending a step waits for a byte, or consumes one by one of the seven transitions (R3, R12). -/
theorem step_next_cases {s t : State} (hc : s.call = none) (h : step s = .next t) :
    (s.input = [] ∧ t = s) ∨ ∃ b rest, s.input = b :: rest ∧ FrTransition (s.setInput rest) b t := by
  cases hi : s.input with
  | nil =>
    rw [step_blocked hc hi] at h
    cases h; exact .inl ⟨rfl, rfl⟩
  | cons b rest =>
    rw [step_byte hc hi] at h
    exact .inr ⟨b, rest, rfl, frStep_transition h⟩

/-! ### The `EV_RAW` events of the pipeline -/

/-- From `s` to `t` the trace only grows, by a list with at most `n` events `EV_RAW`. -/
def AddsAtMostRaw (n : Nat) (s t : State) : Prop :=
  ∃ evs, t.trace = s.trace ++ evs ∧ evs.countP isRaw ≤ n

theorem AddsAtMostRaw.of_trace_eq {n : Nat} {s t : State} (h : t.trace = s.trace) : AddsAtMostRaw n s t :=
  ⟨[], by simp [h], by simp⟩

theorem AddsAtMostRaw.of_diag {n : Nat} {s t : State} {kind : DiagKind} {info : List Nat}
    (h : t.trace = s.trace ++ [.diag kind info]) : AddsAtMostRaw n s t :=
  ⟨_, h, by simp [isRaw]⟩

theorem AddsAtMostRaw.trans {m n : Nat} {s t u : State} (h : AddsAtMostRaw m s t) (g : AddsAtMostRaw n t u) :
    AddsAtMostRaw (m + n) s u := by
  obtain ⟨es, hes, hm⟩ := h
  obtain ⟨fs, hfs, hn⟩ := g
  refine ⟨es ++ fs, by rw [hfs, hes, List.append_assoc], ?_⟩
  rw [List.countP_append]
  exact Nat.add_le_add hm hn

/-- Where the first part of a short-circuit emits no `EV_RAW`, the whole emits at most as many as the rest. -/
theorem orElse_addsAtMostRaw {n : Nat} {s : State} {r : DpStep} {rest : State → State × DpOutcome}
    (h : AddsAtMostRaw 0 s r.1) (g : ∀ t, AddsAtMostRaw n t (rest t).1) : AddsAtMostRaw n s (r.orElse rest).1 := by
  obtain ⟨t, _ | o⟩ := r
  · simpa using h.trans (g t)
  · obtain ⟨evs, htrace, hraw⟩ := h
    exact ⟨evs, htrace, hraw.trans (Nat.zero_le n)⟩

theorem dpPoll_noRaw (s : State) : AddsAtMostRaw 0 s (dpPoll s).1 := by
  unfold dpPoll; split <;> exact .of_trace_eq rfl

theorem dpShort_noRaw (s : State) : AddsAtMostRaw 0 s (dpShort s).1 := by
  unfold dpShort; split
  · exact .of_diag rfl
  · exact .of_trace_eq rfl

theorem hdParse_noRaw (s : State) : AddsAtMostRaw 0 s (hdParse s) := .of_trace_eq rfl

theorem dpReq_noRaw (s : State) : AddsAtMostRaw 0 s (dpReq s).1 := by
  unfold dpReq; split
  · exact .of_diag rfl
  · exact .of_trace_eq rfl

theorem dpCksum_noRaw (s : State) : AddsAtMostRaw 0 s (dpCksum s).1 := by
  unfold dpCksum; simp only; split
  · exact .of_trace_eq rfl
  · exact .of_diag rfl

theorem dpLen_noRaw (k : Nat) (e : Entry) (s : State) : AddsAtMostRaw 0 s (dpLen k e s) := by
  unfold dpLen; simp only; split
  · exact .of_diag rfl
  · exact .of_trace_eq rfl

/-- `UP.UNPACK` emits nothing, whether the layout fits or not (R180, R187). -/
theorem unpack_trace (layout : Layout) (p : List Byte) (s : State) : (unpack layout p s).1.trace = s.trace := by
  by_cases hfit : layoutWidth layout ≤ p.length
  · rw [unpack_fits s hfit]
  · obtain ⟨c, hc⟩ := unpack_short (layout := layout) (p := p) s (by omega)
    rw [hc]

theorem dpUnpack_noRaw (k : Nat) (e : Entry) (s : State) : AddsAtMostRaw 0 s (dpUnpack k e s).1 := by
  have htrace := unpack_trace e.layout (payload s.tg) s
  unfold dpUnpack
  split <;> rename_i heq <;> rw [heq] at htrace
  · exact .of_trace_eq htrace
  · exact .of_diag (by rw [State.raise_trace, htrace])

/-- The handoff is the one place that emits an `EV_RAW` (R160). -/
theorem dpHandoff_oneRaw (k : Nat) (s : State) : AddsAtMostRaw 1 s (dpHandoff k s).1 :=
  ⟨_, rfl, by simp [isRaw]⟩

theorem dpLookupAndDecode_oneRaw (s : State) : AddsAtMostRaw 1 s (dpLookupAndDecode s).1 := by
  unfold dpLookupAndDecode
  split
  · exact .of_diag rfl
  · rename_i k e _
    have hsel : AddsAtMostRaw 0 s (s.setK (some k)) := .of_trace_eq rfl
    exact orElse_addsAtMostRaw (hsel.trans ((dpLen_noRaw k e _).trans (dpUnpack_noRaw k e _))) (dpHandoff_oneRaw k)

/-- `DP.RUN` emits at most one `EV_RAW`, in its last step (R150). -/
theorem dpRun_oneRaw (s : State) : AddsAtMostRaw 1 s (dpRun s).1 :=
  orElse_addsAtMostRaw (dpPoll_noRaw s) fun s => orElse_addsAtMostRaw (dpShort_noRaw s) fun s =>
    orElse_addsAtMostRaw ((hdParse_noRaw s).trans (dpReq_noRaw _)) fun s =>
      orElse_addsAtMostRaw (dpCksum_noRaw s) dpLookupAndDecode_oneRaw

/-! ### The events of a byte step -/

/-- The events `evs` hold at most one `EV_RAW`, and begin with an `EV_TELEGRAM` where they hold one. -/
def RawAfterTelegram (evs : List Event) : Prop :=
  evs.countP isRaw ≤ 1 ∧ ∀ e ∈ evs, isRaw e = true → ∃ tg more, evs = .telegram tg :: more

theorem rawAfterTelegram_nil : RawAfterTelegram [] := by simp [RawAfterTelegram]

theorem rawAfterTelegram_diag (kind : DiagKind) (info : List Nat) : RawAfterTelegram [.diag kind info] := by
  simp [RawAfterTelegram, isRaw]

theorem rawAfterTelegram_telegram {tg : Telegram} {evs : List Event} (h : evs.countP isRaw ≤ 1) :
    RawAfterTelegram (.telegram tg :: evs) :=
  ⟨by simpa [isRaw] using h, fun _ _ _ => ⟨tg, evs, rfl⟩⟩

@[simp] theorem closeTelegram_trace (s : State) : (closeTelegram s).trace = s.trace ++ [.telegram s.buf] := rfl

/-- Six of the transitions emit no `EV_RAW`; `FR.Z_BREAK` emits its telegram and then what `DP.RUN` emits (R106). -/
theorem FrTransition.rawAfterTelegram {s t : State} {b : Byte} (h : FrTransition s b t) :
    ∃ evs, t.trace = s.trace ++ evs ∧ RawAfterTelegram evs := by
  cases h with
  | nMark | nData | sZero | sLit => exact ⟨[], by simp, rawAfterTelegram_nil⟩
  | sBad => exact ⟨_, rfl, rawAfterTelegram_diag _ _⟩
  | zBreak =>
    obtain ⟨evs, htrace, hraw⟩ := dpRun_oneRaw (closeTelegram s)
    exact ⟨.telegram s.buf :: evs, by simp [htrace], rawAfterTelegram_telegram hraw⟩
  | zPerr => exact ⟨_, rfl, rawAfterTelegram_diag _ _⟩

/-- Settles O14: only `FR.Z_BREAK` can emit an `EV_RAW`, and it emits the telegram first. -/
theorem rawEventFollowsItsTelegram : Obligations.RawEventFollowsItsTelegram := by
  intro s t hcall hstep
  rcases step_next_cases hcall hstep with ⟨-, rfl⟩ | ⟨b, rest, -, htrans⟩
  · exact ⟨[], by simp, rawAfterTelegram_nil⟩
  · exact htrans.rawAfterTelegram

end Sys2Proof.Machine
end

section
/-! SUPPORT. Where an operation called outside its domain is refused. -/

namespace Sys2Proof.Machine

/-! ### The telegram and the selected entry -/

theorem ckCheck_refused {s : State} (h : s.tg.length < 2) : exec .ckCheck s = .refused .telegramTooShortToCheck :=
  if_pos h

theorem dpCksum_refused {s : State} (h : s.tg.length < 2) : exec .dpCksum s = .refused .telegramTooShortToCheck :=
  if_pos h

theorem hdParse_refused {s : State} (h : s.tg.length < 6) : exec .hdParse s = .refused .telegramTooShortToParse :=
  if_pos h

theorem selected_eq_none {s : State} (h : s.k = none) : s.selected = none := by
  simp [State.selected, h]

theorem dpLen_refused {s : State} (h : s.selected = none) : exec .dpLen s = .refused .noCatalogEntry := by
  simp [exec, execDpLen, h]

theorem dpUnpack_refused {s : State} (h : s.selected = none) : exec .dpUnpack s = .refused .noCatalogEntry := by
  simp [exec, execDpUnpack, h]

theorem dpHandoff_refused {s : State} (h : s.k = none) : exec .dpHandoff s = .refused .noCatalogEntry := by
  simp [exec, execDpHandoff, h]

/-! ### The post-extraction operators -/

theorem pxBit_refused {v : RawVal} {mask : Nat} (h : maskInDomain v mask = false) (s : State) :
    exec (.pxBit v mask) s = .refused .bitOutsideDomain := by
  simp [exec, execPxBit, h]

/-- Two fields join to a wide value only when both are of kind `u16` (R211). -/
theorem wide32_eq_none {v w : RawVal} (h : isU16 v = false ∨ isU16 w = false) : wide32 v w = none := by
  cases v with
  | u16 high =>
    cases w with
    | u16 low => simp [isU16] at h
    | u8 | s8 | s16 | str => rfl
  | u8 | s8 | s16 | str => rfl

theorem pxWide32_refused {v w : RawVal} (h : isU16 v = false ∨ isU16 w = false) (s : State) :
    exec (.pxWide32 v w) s = .refused .wideOutsideDomain := by
  simp [exec, execPxWide32, wide32_eq_none h]

theorem pxSent_refused {v : RawVal} {sentinel : Int} (h : sentinelInDomain v sentinel = false) (s : State) :
    exec (.pxSent v sentinel) s = .refused .sentinelOutsideDomain := by
  simp [exec, execPxSent, h]

/-- A scale with a part that is not positive is outside the domain (R214). -/
theorem scaleInDomain_eq_false {num den : Int} (h : num ≤ 0 ∨ den ≤ 0) : scaleInDomain num den = false :=
  decide_eq_false (by omega)

theorem pxScale_refused {num den : Int} (h : num ≤ 0 ∨ den ≤ 0) (v : Int) (s : State) :
    exec (.pxScale v num den) s = .refused .scaleOutsideDomain := by
  simp [exec, execPxScale, scaleInDomain_eq_false h]

/-- Settles O50: the byte a transition's key does not select is refused by its first test, and the other operations by the
lemmas above. -/
theorem callsOutsideTheDomainAreRefused : Obligations.CallsOutsideTheDomainAreRefused := by
  intro s
  refine ⟨rfl, rfl, rfl, rfl, ?checksum, hdParse_refused, ?selection, ?bit, ?wide, ?sent, ?scale⟩
  case checksum => exact fun h => ⟨ckCheck_refused h, dpCksum_refused h⟩
  case selection =>
    exact fun h => ⟨dpLen_refused (selected_eq_none h), dpUnpack_refused (selected_eq_none h), dpHandoff_refused h⟩
  case bit => exact fun _ _ h => pxBit_refused h s
  case wide => exact fun _ _ h => pxWide32_refused h s
  case sent => exact fun _ _ h => pxSent_refused h s
  case scale => exact fun v _ _ h => pxScale_refused h v s

end Sys2Proof.Machine
end

section
/-! SUPPORT. What a step runs: the operation a key or a call decodes to, or the stop of a rejected call; and the state after
reset. -/

namespace Sys2Proof.Machine

/-- A called word that decodes to nothing stops by the name of the reason. -/
theorem step_call_rejected {s : State} {c : Call} {e : DecodeError} (hc : s.call = some c)
    (hd : decode c.word c.args = .error e) : step s = rejectAnswer e := by
  simp [step, fetch, hc, hd]

theorem rejectAnswer_ne_next (e : DecodeError) (t : State) : rejectAnswer e ≠ .next t := by
  cases e <;> simp [rejectAnswer]

/-- A byte step runs the operation its key decodes to (R28, R72). -/
theorem step_key {s : State} {b : Byte} {rest : List Byte} {i : Instr} (hc : s.call = none) (hi : s.input = b :: rest)
    (hk : decodeKey (framerKey s.fs b) = some i) : step s = exec i (s.setInput rest) := by
  simp [step, fetch, hc, hi, hk]

/-- Settles O1, clause by clause: the key's operation, `FR.STEP` of the byte, the called operation, the wait, and the stop
of a rejected call. -/
theorem stepRunsTheDecodedOperation : Obligations.StepRunsTheDecodedOperation :=
  ⟨fun _ _ _ _ => step_key, fun _ _ _ => step_byte, fun _ _ _ => step_call, fun _ => step_blocked, fun _ _ hc =>
    ⟨step_call_rejected hc, step_call_rejected hc, step_call_rejected hc, step_call_rejected hc⟩⟩

/-- Settles O52: each clause is a field of `State.reset`, or of the parameters it starts with. -/
theorem resetStateIsTheSpecs : Obligations.ResetStateIsTheSpecs :=
  ⟨rfl, rfl, rfl, rfl, rfl, rfl⟩

end Sys2Proof.Machine
end

section
/-! SUPPORT. `DP.RUN` gives the events and the outcome of `pipelineResult`, which reads the telegram and the tables only
(R150, R163). -/

namespace Sys2Proof.Machine

/-- The pipeline, or the rest of it, run from `s` adds the events of `res` to the trace and returns its outcome. -/
def Yields (s : State) (r : State × DpOutcome) (res : List Event × DpOutcome) : Prop :=
  r.1.trace = s.trace ++ res.1 ∧ r.2 = res.2

/-! ### Steps 7 to 10 -/

theorem dpLen_eq (k : Nat) (e : Entry) (s : State) :
    dpLen k e s = { s with
      lenwarn := lengthWarning s.hdr.plen e.expLen, trace := s.trace ++ lengthEvents k s.hdr.plen e } := by
  by_cases h : s.hdr.plen = e.expLen
  · simp [dpLen, lengthWarning, lengthEvents, h, State.setLenwarn]
  · simp [dpLen, lengthWarning, lengthEvents, h, State.setLenwarn, State.raise, State.emit]

@[simp] theorem dpLen_trace (k : Nat) (e : Entry) (s : State) :
    (dpLen k e s).trace = s.trace ++ lengthEvents k s.hdr.plen e := by rw [dpLen_eq]
@[simp] theorem dpLen_lenwarn (k : Nat) (e : Entry) (s : State) :
    (dpLen k e s).lenwarn = lengthWarning s.hdr.plen e.expLen := by rw [dpLen_eq]
@[simp] theorem dpLen_hdr (k : Nat) (e : Entry) (s : State) : (dpLen k e s).hdr = s.hdr := by rw [dpLen_eq]
@[simp] theorem dpLen_tg (k : Nat) (e : Entry) (s : State) : (dpLen k e s).tg = s.tg := by rw [dpLen_eq]

theorem dpUnpack_fits {e : Entry} {s : State} (k : Nat) (h : layoutWidth e.layout ≤ (payload s.tg).length) :
    dpUnpack k e s = ({ s with f := fieldsFrom (payload s.tg) 0 e.layout, cur := layoutWidth e.layout }, none) := by
  rw [dpUnpack, unpack_fits s h]

theorem dpUnpack_short {e : Entry} {s : State} (k : Nat) (h : (payload s.tg).length < layoutWidth e.layout) :
    ∃ c, dpUnpack k e s =
      (({ s with f := [], cur := c } : State).raise .layoutMismatch [k, s.hdr.plen, layoutWidth e.layout],
        some .layoutMismatch) := by
  obtain ⟨c, hc⟩ := unpack_short s h
  exact ⟨c, by rw [dpUnpack, hc]⟩

/-- With the header of `TG` parsed, steps 7 to 10 are `decodeResult` of the telegram. -/
theorem dpDecode_yields {s : State} (k : Nat) (e : Entry) (hplen : s.hdr.plen = s.tg.length - 5)
    (hrecord : s.hdr.record = telegramHeader s.tg) : Yields s (dpDecode k e s) (decodeResult k e s.tg) := by
  unfold dpDecode
  by_cases hfit : layoutWidth e.layout ≤ (payload s.tg).length
  · rw [dpUnpack_fits k (by rwa [dpLen_tg])]
    simp [Yields, dpHandoff, decodeResult, hfit, hplen, hrecord, lengthWarning, bne, beq_eq_decide]
  · obtain ⟨c, hc⟩ := dpUnpack_short (s := dpLen k e s) k (by rwa [dpLen_tg, ← not_le])
    rw [hc]
    simp [Yields, decodeResult, hfit, hplen]

/-! ### Steps 1 to 6 -/

/-- Steps 6 to 10 as a function of the telegram, with the search of `CAT.LOOKUP` (R156). -/
def lookupResult (catalog : List Entry) (t : Telegram) : List Event × DpOutcome :=
  match lookup (telegramHeader t).typ catalog with
  | none => ([.diag .unknownType [(telegramHeader t).typ.toNat]], .unknownType)
  | some (k, e) => decodeResult k e t

/-- A telegram that passes steps 1 to 5 goes to the search. -/
theorem pipelineResult_eq_lookupResult {tbl : CkTable} {t : Telegram} (catalog : List Entry) (hlen : 6 ≤ t.length)
    (hrq : (telegramHeader t).rq ≠ 1) (hck : ckCompute tbl t.dropLast = byteAt t (t.length - 1)) :
    pipelineResult tbl catalog t = lookupResult catalog t := by
  have hpoll : t.length ≠ 1 := by omega
  simp only [pipelineResult, lookupResult, lookup_eq, if_neg hpoll, if_neg hlen.not_gt, if_neg hrq, hck, ne_eq,
    not_true_eq_false, if_false]
  cases catalog.findIdx? fun e => e.id == (telegramHeader t).typ with
  | none => rfl
  | some k => cases hk : catalog[k]? <;> simp [hk]

theorem dpLookupAndDecode_yields {s : State} (hplen : s.hdr.plen = s.tg.length - 5)
    (hrecord : s.hdr.record = telegramHeader s.tg) :
    Yields s (dpLookupAndDecode s) (lookupResult s.cfg.catalog s.tg) := by
  have htyp : s.hdr.typ = (telegramHeader s.tg).typ := by rw [← hrecord]; rfl
  unfold dpLookupAndDecode lookupResult
  rw [htyp]
  cases lookup (telegramHeader s.tg).typ s.cfg.catalog with
  | none => simp [Yields, unknownType, htyp]
  | some entry => exact dpDecode_yields (s := s.setK (some entry.1)) entry.1 entry.2 hplen hrecord

theorem dpReq_request {s : State} (h : s.hdr.rq = 1) :
    dpReq s = (s.raise .requestSkipped [s.hdr.src.toNat, s.hdr.dst.toNat, s.hdr.typ.toNat, s.hdr.ofs.toNat],
      some .request) :=
  if_pos h

theorem dpReq_response {s : State} (h : s.hdr.rq ≠ 1) : dpReq s = (s, none) := if_neg h

theorem dpCksum_valid {s : State} (h : ckCompute s.cfg.ckTable s.tg.dropLast = byteAt s.tg (s.tg.length - 1)) :
    dpCksum s = (ckCheckState s, none) := by
  simp [dpCksum, ckVerdict, summedBytes_eq, h]

theorem dpCksum_invalid {s : State} (h : ckCompute s.cfg.ckTable s.tg.dropLast ≠ byteAt s.tg (s.tg.length - 1)) :
    dpCksum s = ((ckCheckState s).raise .badChecksum
      [(ckCompute s.cfg.ckTable s.tg.dropLast).toNat, (byteAt s.tg (s.tg.length - 1)).toNat], some .badChecksum) := by
  simp [dpCksum, ckCheckState, ckVerdict, summedBytes_eq, h]

/-- A telegram of 6 or more bytes passes steps 1 and 2 (R151, R152). -/
theorem dpRun_of_six_le {s : State} (h : 6 ≤ s.tg.length) :
    dpRun s = (dpReq (hdParse s)).orElse fun s => (dpCksum s).orElse dpLookupAndDecode := by
  have hpoll : s.tg.length ≠ 1 := by omega
  simp [dpRun, dpPoll, dpShort, hpoll, h.not_gt]

/-- `DP.RUN` is `pipelineResult` of the telegram and the tables, whatever the other registers hold (R150, R163). -/
theorem dpRun_yields (s : State) : Yields s (dpRun s) (pipelineResult s.cfg.ckTable s.cfg.catalog s.tg) := by
  by_cases hpoll : s.tg.length = 1
  · simp [Yields, dpRun, dpPoll, pipelineResult, hpoll]
  by_cases hshort : s.tg.length < 6
  · simp [Yields, dpRun, dpPoll, dpShort, pipelineResult, hpoll, hshort]
  rw [dpRun_of_six_le (not_lt.mp hshort)]
  by_cases hrq : (telegramHeader s.tg).rq = 1
  · rw [dpReq_request (s := hdParse s) hrq]
    simp only [pipelineResult, if_neg hpoll, if_neg hshort, if_pos hrq]
    exact ⟨rfl, rfl⟩
  rw [dpReq_response (s := hdParse s) hrq, orElse_none]
  by_cases hck : ckCompute s.cfg.ckTable s.tg.dropLast = byteAt s.tg (s.tg.length - 1)
  · rw [dpCksum_valid (s := hdParse s) hck, pipelineResult_eq_lookupResult _ (not_lt.mp hshort) hrq hck]
    exact dpLookupAndDecode_yields (s := ckCheckState (hdParse s)) rfl rfl
  · rw [dpCksum_invalid (s := hdParse s) hck]
    simp only [pipelineResult, if_neg hpoll, if_neg hshort, if_neg hrq, if_pos hck]
    exact ⟨rfl, rfl⟩

end Sys2Proof.Machine
end

section
/-! SUPPORT. The invariant: what each register write, each pipeline step, each operation and each step of the worker does
to it. -/

namespace Sys2Proof.Machine

/-! ### Register writes and events

The invariant speaks of `cfg`, `buf`, `k` and the trace only: a write of any other register keeps it by definition. -/

@[simp] theorem inv_setCall (s : State) (x : Option Call) : (s.setCall x).Inv ↔ s.Inv := .rfl
@[simp] theorem inv_setInput (s : State) (x : List Byte) : (s.setInput x).Inv ↔ s.Inv := .rfl
@[simp] theorem inv_setFs (s : State) (x : FState) : (s.setFs x).Inv ↔ s.Inv := .rfl
@[simp] theorem inv_setLenwarn (s : State) (x : Bool) : (s.setLenwarn x).Inv ↔ s.Inv := .rfl

/-- Emptying the buffer keeps the invariant (R106). -/
theorem inv_clearBuf {s : State} (h : s.Inv) : (s.setBuf []).Inv :=
  ⟨clear_wf _, h.2⟩

/-- An append that answers a next state keeps the invariant (R108). -/
theorem inv_append {s t : State} {b : Byte} (h : s.Inv) (ha : s.append b = .next t) : t.Inv := by
  obtain ⟨hwf, hrest⟩ := h
  have hbuf := append_wf hwf ha
  rw [append_eq] at ha
  split at ha
  · cases ha
  · cases ha; exact ⟨hbuf, hrest⟩

/-- The index register may take any value that names an entry, and none. -/
theorem inv_setK {s : State} {k : Option Nat} (h : s.Inv) (hk : ∀ n, k = some n → indexWf s.cfg.catalog n = true) :
    (s.setK k).Inv := by
  obtain ⟨hbuf, -, htrace⟩ := h
  exact ⟨hbuf, hk, htrace⟩

/-- The invariant is kept by emitting exactly the legal events. -/
@[simp] theorem inv_emit (s : State) (e : Event) : (s.emit e).Inv ↔ s.Inv ∧ eventWf s.cfg.catalog e = true := by
  simp [State.Inv, or_imp, forall_and, and_assoc]

@[simp] theorem inv_raise (s : State) (kind : DiagKind) (info : List Nat) :
    (s.raise kind info).Inv ↔ s.Inv ∧ diagWf s.cfg.catalog kind info = true :=
  inv_emit s _

/-! ### The catalog -/

theorem indexWf_iff {catalog : List Entry} {k : Nat} : indexWf catalog k = true ↔ ∃ e, catalog[k]? = some e := by
  simp [indexWf, List.getElem?_eq_some_iff]

/-- The selected entry is the one its index names. -/
theorem selected_some {s : State} {k : Nat} {e : Entry} (h : s.selected = some (k, e)) : s.cfg.catalog[k]? = some e := by
  unfold State.selected at h
  split at h
  · cases h
  · split at h
    · cases h
    · rename_i hk; cases h; exact hk

/-- The invariant, and `e` at index `k` of the catalog: what steps 7 to 9 of the pipeline find and keep (R158 to R160). -/
def State.InvAt (k : Nat) (e : Entry) (s : State) : Prop := s.Inv ∧ s.cfg.catalog[k]? = some e

/-! ### The pipeline -/

/-- A property of states that both halves of a short-circuit keep holds after it. -/
theorem orElse_keeps {P : State → Prop} {r : DpStep} {rest : State → State × DpOutcome} (h : P r.1)
    (g : ∀ {t}, P t → P (rest t).1) : P (r.orElse rest).1 := by
  obtain ⟨t, _ | o⟩ := r
  · exact g h
  · exact h

theorem dpPoll_inv {s : State} (h : s.Inv) : (dpPoll s).1.Inv := by
  unfold dpPoll; split <;> exact h

theorem dpShort_inv {s : State} (h : s.Inv) : (dpShort s).1.Inv := by
  unfold dpShort; split
  · rename_i hlen; simp [h, diagWf, hlen]
  · exact h

theorem hdParse_inv {s : State} (h : s.Inv) : (hdParse s).Inv := h

theorem dpReq_inv {s : State} (h : s.Inv) : (dpReq s).1.Inv := by
  unfold dpReq; split
  · simpa [h, diagWf] using ⟨s.hdr.src.isLt, s.hdr.dst.isLt, s.hdr.typ.isLt, s.hdr.ofs.isLt⟩
  · exact h

theorem dpCksum_inv {s : State} (h : s.Inv) : (dpCksum s).1.Inv := by
  by_cases hck : ckCompute s.cfg.ckTable s.tg.dropLast = byteAt s.tg (s.tg.length - 1)
  · rw [dpCksum_valid hck]; exact h
  · rw [dpCksum_invalid hck]
    have hinfo : diagWf s.cfg.catalog .badChecksum
        [(ckCompute s.cfg.ckTable s.tg.dropLast).toNat, (byteAt s.tg (s.tg.length - 1)).toNat] = true := by
      simpa [diagWf, BitVec.toNat_inj, hck] using ⟨BitVec.isLt _, BitVec.isLt _⟩
    exact (inv_raise _ _ _).mpr ⟨h, hinfo⟩

/-- A miss of the lookup raises the id of no entry (R156). -/
theorem unknownType_inv {s : State} (h : s.Inv) (hl : lookup s.hdr.typ s.cfg.catalog = none) : (unknownType s).Inv := by
  have hno := lookup_none.mp hl
  refine (inv_raise _ _ _).mpr ⟨inv_setK h nofun, ?_⟩
  simpa [diagWf, s.hdr.typ.isLt, BitVec.toNat_inj] using hno

/-- A hit of the lookup selects an entry of the catalog (R156, R157). -/
theorem setK_invAt {s : State} {k : Nat} {e : Entry} (h : s.Inv) (hl : lookup s.hdr.typ s.cfg.catalog = some (k, e)) :
    (s.setK (some k)).InvAt k e := by
  have hk := (lookup_some hl).1
  refine ⟨inv_setK h fun n hn => ?_, hk⟩
  cases hn; exact indexWf_iff.mpr ⟨e, hk⟩

theorem catLookup_inv {s : State} (h : s.Inv) : (catLookup s).1.Inv := by
  unfold catLookup
  split
  · rename_i hl; exact unknownType_inv h hl
  · rename_i hl; exact (setK_invAt h hl).1

theorem dpLen_invAt {s : State} {k : Nat} {e : Entry} (h : s.InvAt k e) : (dpLen k e s).InvAt k e := by
  obtain ⟨hinv, hk⟩ := h
  unfold dpLen lengthWarning
  simp only
  split
  · rename_i hne; exact ⟨by simpa [hinv, diagWf, hk] using hne, hk⟩
  · exact ⟨hinv, hk⟩

theorem dpUnpack_invAt {s : State} {k : Nat} {e : Entry} (h : s.InvAt k e) : (dpUnpack k e s).1.InvAt k e := by
  obtain ⟨hinv, hk⟩ := h
  by_cases hfit : layoutWidth e.layout ≤ (payload s.tg).length
  · rw [dpUnpack_fits k hfit]; exact ⟨hinv, hk⟩
  · obtain ⟨c, hc⟩ := dpUnpack_short (s := s) k (not_le.mp hfit)
    rw [hc]
    exact ⟨(inv_raise _ _ _).mpr ⟨hinv, by simp [diagWf, hk]⟩, hk⟩

theorem dpHandoff_inv {s : State} {k : Nat} (h : s.Inv) (hk : indexWf s.cfg.catalog k = true) : (dpHandoff k s).1.Inv :=
  (inv_emit _ _).mpr ⟨h, hk⟩

theorem dpDecode_invAt {s : State} {k : Nat} {e : Entry} (h : s.InvAt k e) : (dpDecode k e s).1.InvAt k e :=
  orElse_keeps (dpUnpack_invAt (dpLen_invAt h)) fun ⟨hinv, hk⟩ => ⟨dpHandoff_inv hinv (indexWf_iff.mpr ⟨e, hk⟩), hk⟩

theorem dpLookupAndDecode_inv {s : State} (h : s.Inv) : (dpLookupAndDecode s).1.Inv := by
  unfold dpLookupAndDecode
  split
  · rename_i hl; exact unknownType_inv h hl
  · rename_i hl; exact (dpDecode_invAt (setK_invAt h hl)).1

/-- `DP.RUN` keeps the invariant, as each of its steps does (R150). -/
theorem dpRun_inv {s : State} (h : s.Inv) : (dpRun s).1.Inv :=
  orElse_keeps (dpPoll_inv h) fun h => orElse_keeps (dpShort_inv h) fun h =>
    orElse_keeps (dpReq_inv (hdParse_inv h)) fun h => orElse_keeps (dpCksum_inv h) dpLookupAndDecode_inv

/-! ### The operations -/

/-- Where the answer is a next state, the invariant holds in it. -/
def NextInv (a : Answer) : Prop := ∀ t, a = .next t → t.Inv

theorem nextInv_next {s : State} (h : s.Inv) : NextInv (.next s) := fun _ heq => by cases heq; exact h
theorem nextInv_fault (r : Fault) : NextInv (.fault r) := fun _ heq => by cases heq
theorem nextInv_refused (r : Refusal) : NextInv (.refused r) := fun _ heq => by cases heq

theorem nextInv_ite {c : Prop} [Decidable c] {a b : Answer} (ha : NextInv a) (hb : NextInv b) :
    NextInv (if c then a else b) := by
  split
  · exact ha
  · exact hb

/-- An append keeps the invariant where what follows it does (R102, R104, R107). -/
theorem nextInv_append {s : State} {b : Byte} {g : State → State} (h : s.Inv) (hg : ∀ t, t.Inv → (g t).Inv) :
    NextInv ((s.append b).thenNext g) := by
  cases ha : s.append b with
  | next t => exact nextInv_next (hg t (inv_append h ha))
  | fault r => exact nextInv_fault r
  | refused r => exact nextInv_refused r

theorem toNat_pos_iff {b : Byte} : 0 < b.toNat ↔ b ≠ zeroByte := by
  rw [ne_eq, ← BitVec.toNat_inj, Nat.pos_iff_ne_zero]; rfl

theorem toNat_lt_marker_iff {b : Byte} : b.toNat < 255 ↔ b ≠ markerByte := by
  have hlt := b.isLt
  have hmark : markerByte.toNat = 255 := rfl
  rw [ne_eq, ← BitVec.toNat_inj, hmark]
  omega

theorem frNData_nextInv {s : State} (b : Byte) (h : s.Inv) : NextInv (execFrNData b s) := by
  unfold execFrNData; split
  · exact nextInv_refused _
  · exact nextInv_append h fun _ ht => ht

theorem frSBad_nextInv {s : State} (b : Byte) (h : s.Inv) : NextInv (execFrSBad b s) := by
  unfold execFrSBad; split
  · exact nextInv_refused _
  · rename_i hb
    obtain ⟨hz, hm⟩ := not_or.mp hb
    exact nextInv_next (by simp [h, diagWf, toNat_pos_iff.mpr hz, toNat_lt_marker_iff.mpr hm])

theorem frZPerr_nextInv {s : State} (b : Byte) (h : s.Inv) : NextInv (execFrZPerr b s) := by
  unfold execFrZPerr; split
  · exact nextInv_refused _
  · rename_i hz
    exact nextInv_append h fun t ht => by simp [ht, diagWf, toNat_pos_iff.mpr hz, b.isLt]

theorem closeTelegram_inv {s : State} (h : s.Inv) : (closeTelegram s).Inv :=
  (inv_emit _ _).mpr ⟨inv_clearBuf (s := s.setTg s.buf) h, rfl⟩

theorem frZBreak_inv {s : State} (h : s.Inv) : (dpRun (closeTelegram s)).1.Inv := dpRun_inv (closeTelegram_inv h)

theorem frStep_nextInv {s : State} (b : Byte) (h : s.Inv) : NextInv (execFrStep b s) := by
  unfold execFrStep
  split <;> split
  · exact nextInv_next h
  · exact frNData_nextInv b h
  · exact nextInv_next h
  · split
    · exact nextInv_append h fun _ ht => ht
    · exact frSBad_nextInv b h
  · exact nextInv_next (frZBreak_inv h)
  · exact frZPerr_nextInv b h

/-- One slot writes `F` and `CUR` only (R180). -/
theorem applySlot_inv {s : State} (sl : Slot) (p : List Byte) (h : s.Inv) : (applySlot sl p s).1.Inv := by
  unfold applySlot; split <;> exact h

theorem runSlot_nextInv {s : State} (sl : Slot) (r : Result) (h : s.Inv) : NextInv (runSlot sl r s) := by
  have hslot := applySlot_inv sl (payload s.tg) h
  unfold runSlot
  split <;> rename_i heq <;> rw [heq] at hslot <;> exact nextInv_next hslot

/-- `UP.UNPACK` writes `F` and `CUR` only. -/
theorem unpack_inv {s : State} (layout : Layout) (p : List Byte) (h : s.Inv) : (unpack layout p s).1.Inv := by
  by_cases hfit : layoutWidth layout ≤ p.length
  · rw [unpack_fits s hfit]; exact h
  · obtain ⟨c, hc⟩ := unpack_short (layout := layout) (p := p) s (by omega)
    rw [hc]; exact h

theorem upUnpack_nextInv {s : State} (layout : Layout) (p : List Byte) (h : s.Inv) :
    NextInv (execUpUnpack layout p s) := by
  have hunpack := unpack_inv layout p h
  unfold execUpUnpack
  split <;> rename_i heq <;> rw [heq] at hunpack <;> exact nextInv_next hunpack

theorem dpLen_nextInv {s : State} (h : s.Inv) : NextInv (execDpLen s) := by
  unfold execDpLen; split
  · exact nextInv_refused _
  · rename_i hsel; exact nextInv_next (dpLen_invAt ⟨h, selected_some hsel⟩).1

theorem dpUnpack_nextInv {s : State} (h : s.Inv) : NextInv (execDpUnpack s) := by
  unfold execDpUnpack; split
  · exact nextInv_refused _
  · rename_i hsel; exact nextInv_next (dpUnpack_invAt ⟨h, selected_some hsel⟩).1

theorem dpHandoff_nextInv {s : State} (h : s.Inv) : NextInv (execDpHandoff s) := by
  unfold execDpHandoff; split
  · exact nextInv_refused _
  · rename_i k hk
    have ⟨_, hindex, _⟩ := h
    exact nextInv_next (dpHandoff_inv h (hindex k hk))

/-- `RESET` leaves nothing the invariant could be broken by (R260). -/
theorem reset_nextInv (s : State) : NextInv (execReset s) :=
  nextInv_next ⟨clear_wf _, nofun, nofun⟩

/-- Every operation keeps the invariant. -/
theorem exec_nextInv {s : State} (i : Instr) (h : s.Inv) : NextInv (exec i s) := by
  cases i with
  | frNMark | frSZero | ckInit | ckUpdate | ckCompute | pxBitmap | hdHeader => exact nextInv_next h
  | frNData b => exact frNData_nextInv b h
  | frSLit => exact nextInv_append h fun _ ht => ht
  | frSBad b => exact frSBad_nextInv b h
  | frZBreak => exact nextInv_next (frZBreak_inv h)
  | frZPerr b => exact frZPerr_nextInv b h
  | frStep b => exact frStep_nextInv b h
  | upU8 | upS8 | upU16 | upS16 | upStr | upSkip => exact runSlot_nextInv _ _ h
  | upUnpack layout p => exact upUnpack_nextInv layout p h
  | ckCheck | hdParse => exact nextInv_ite (nextInv_refused _) (nextInv_next h)
  | dpRun => exact nextInv_next (dpRun_inv h)
  | dpPoll => exact nextInv_next (dpPoll_inv h)
  | dpShort => exact nextInv_next (dpShort_inv h)
  | dpReq => exact nextInv_next (dpReq_inv h)
  | dpCksum => exact nextInv_ite (nextInv_refused _) (nextInv_next (dpCksum_inv h))
  | catLookup => exact nextInv_next (catLookup_inv h)
  | dpLen => exact dpLen_nextInv h
  | dpUnpack => exact dpUnpack_nextInv h
  | dpHandoff => exact dpHandoff_nextInv h
  | pxSent | pxScale => exact nextInv_ite (nextInv_next h) (nextInv_refused _)
  | pxBit v mask =>
    simp only [exec, execPxBit]; split
    · exact nextInv_next h
    · exact nextInv_refused _
  | pxWide32 high low =>
    simp only [exec, execPxWide32]; split
    · exact nextInv_next h
    · exact nextInv_refused _
  | reset => exact reset_nextInv s

/-- Settles O55: a step waits, stops, or runs an operation in a state with the same buffer, index and trace, and every
operation keeps the invariant. -/
theorem everyStepKeepsTheInvariant : Obligations.EveryStepKeepsTheInvariant := by
  intro s t hinv hstep
  cases hcall : s.call with
  | none =>
    cases hinput : s.input with
    | nil =>
      rw [step_blocked hcall hinput] at hstep
      exact nextInv_next hinv t hstep
    | cons b rest =>
      rw [step_byte hcall hinput] at hstep
      exact exec_nextInv _ ((inv_setInput s rest).mpr hinv) t hstep
  | some c =>
    cases hdecode : decode c.word c.args with
    | ok i =>
      rw [step_call hcall hdecode] at hstep
      exact exec_nextInv i ((inv_setCall s none).mpr hinv) t hstep
    | error e =>
      rw [step_call_rejected hcall hdecode] at hstep
      exact absurd hstep (rejectAnswer_ne_next e t)

end Sys2Proof.Machine
end

section
/-! SUPPORT. Two states that differ in transient registers only take the same byte steps (R20). -/

namespace Sys2Proof.Machine

/-! ### Register writes and events -/

theorem State.sameVisible.setInput {s s' : State} (h : s.sameVisible s') (bs : List Byte) :
    (s.setInput bs).sameVisible (s'.setInput bs) := by
  obtain ⟨hcfg, -, hrest⟩ := h
  exact ⟨hcfg, rfl, hrest⟩

theorem State.sameVisible.setFs {s s' : State} (h : s.sameVisible s') (fs : FState) :
    (s.setFs fs).sameVisible (s'.setFs fs) := by
  obtain ⟨hcfg, hinput, hcall, htrace, -, hbuf⟩ := h
  exact ⟨hcfg, hinput, hcall, htrace, rfl, hbuf⟩

theorem State.sameVisible.setBuf {s s' : State} (h : s.sameVisible s') (bs : List Byte) :
    (s.setBuf bs).sameVisible (s'.setBuf bs) := by
  obtain ⟨hcfg, hinput, hcall, htrace, hfs, -⟩ := h
  exact ⟨hcfg, hinput, hcall, htrace, hfs, rfl⟩

theorem State.sameVisible.emit {s s' : State} (h : s.sameVisible s') (e : Event) :
    (s.emit e).sameVisible (s'.emit e) := by
  obtain ⟨hcfg, hinput, hcall, htrace, hrest⟩ := h
  exact ⟨hcfg, hinput, hcall, congrArg (· ++ [e]) htrace, hrest⟩

/-- The pipeline reads `TG`, which the framer writes first, and no other transient register (R163). -/
theorem State.sameVisible.dpRun {s s' : State} (h : s.sameVisible s') (htg : s.tg = s'.tg) :
    (dpRun s).1.sameVisible (dpRun s').1 := by
  obtain ⟨hcfg, hinput, hcall, htrace, hfs, hbuf⟩ := h
  obtain ⟨gcfg, ginput, gcall, gfs, gbuf, -⟩ := dpRun_frame s
  obtain ⟨gcfg', ginput', gcall', gfs', gbuf', -⟩ := dpRun_frame s'
  obtain ⟨gtrace, -⟩ := dpRun_yields s
  obtain ⟨gtrace', -⟩ := dpRun_yields s'
  refine ⟨?_, ?_, ?_, ?_, ?_, ?_⟩
  · rw [gcfg, gcfg', hcfg]
  · rw [ginput, ginput', hinput]
  · rw [gcall, gcall', hcall]
  · rw [gtrace, gtrace', htrace, hcfg, htg]
  · rw [gfs, gfs', hfs]
  · rw [gbuf, gbuf', hbuf]

theorem State.sameVisible.closeTelegram {s s' : State} (h : s.sameVisible s') :
    (closeTelegram s).sameVisible (closeTelegram s') := by
  have ⟨_, _, _, _, _, hbuf⟩ := h
  have hclosed : (s.setTg s.buf).sameVisible (s'.setTg s.buf) := h
  unfold Machine.closeTelegram
  rw [← hbuf]
  exact ((hclosed.setBuf []).setFs .normal).emit _

/-! ### Answers -/

/-- The second answer is the first, up to transient registers; nothing is said where the first is a refusal. -/
def AnswersAlike (a a' : Answer) : Prop :=
  (∀ t, a = .next t → ∃ t', a' = .next t' ∧ t.sameVisible t') ∧ ∀ r, a = .fault r → a' = .fault r

theorem answersAlike_next {t t' : State} (h : t.sameVisible t') : AnswersAlike (.next t) (.next t') :=
  ⟨fun _ heq => by cases heq; exact ⟨t', rfl, h⟩, fun _ heq => by cases heq⟩

theorem answersAlike_fault (r : Fault) : AnswersAlike (.fault r) (.fault r) :=
  ⟨fun _ heq => (by cases heq), fun _ heq => heq⟩

theorem answersAlike_refused (r : Refusal) (a : Answer) : AnswersAlike (.refused r) a :=
  ⟨fun _ heq => (by cases heq), fun _ heq => (by cases heq)⟩

/-- Two answers behind one test. -/
theorem answersAlike_ite {c : Prop} [Decidable c] {a a' d d' : Answer} (ha : AnswersAlike a a')
    (hd : AnswersAlike d d') : AnswersAlike (if c then a else d) (if c then a' else d') := by
  split
  · exact ha
  · exact hd

/-- An append reads `BUF_CAP` and `BUF` only (R108). -/
theorem answersAlike_append {s s' : State} {b : Byte} {g : State → State} (h : s.sameVisible s')
    (hg : ∀ {t t' : State}, t.sameVisible t' → (g t).sameVisible (g t')) :
    AnswersAlike ((s.append b).thenNext g) ((s'.append b).thenNext g) := by
  have hgrown := h.setBuf (s.buf ++ [b])
  obtain ⟨hcfg, -, -, -, -, hbuf⟩ := h
  have hfull : s'.bufFull = s.bufFull := by rw [State.bufFull, State.bufFull, hcfg, hbuf]
  unfold State.append
  rw [hfull, ← hbuf]
  split
  · exact answersAlike_fault _
  · exact answersAlike_next (hg hgrown)

/-- `FR.STEP`, transition by transition (R101 to R107). -/
theorem frStep_answersAlike {s s' : State} (h : s.sameVisible s') (b : Byte) :
    AnswersAlike (execFrStep b s) (execFrStep b s') := by
  have ⟨_, _, _, _, hfs, hbuf⟩ := h
  have hmark (fs : FState) : AnswersAlike (.next (s.setFs fs)) (.next (s'.setFs fs)) := answersAlike_next (h.setFs fs)
  have hbyte (c : Byte) :
      AnswersAlike ((s.append c).thenNext (·.setFs .normal)) ((s'.append c).thenNext (·.setFs .normal)) :=
    answersAlike_append h fun ht => ht.setFs .normal
  unfold execFrStep
  rw [← hfs]
  cases s.fs with
  | normal => exact answersAlike_ite (hmark _) (answersAlike_ite (answersAlike_refused _ _) (hbyte b))
  | markSeen =>
    have hbad := answersAlike_next ((h.emit (.diag .malformedMarker [b.toNat])).setFs .normal)
    exact answersAlike_ite (hmark _)
      (answersAlike_ite (hbyte markerByte) (answersAlike_ite (answersAlike_refused _ _) hbad))
  | markZero =>
    have hbreak := answersAlike_next (h.closeTelegram.dpRun hbuf)
    have hglitch : AnswersAlike (execFrZPerr b s) (execFrZPerr b s') :=
      answersAlike_ite (answersAlike_refused _ _) (answersAlike_append h fun ht => (ht.setFs .normal).emit _)
    exact answersAlike_ite hbreak hglitch

/-- Settles O56: with no call pending a step waits or is `FR.STEP` of the next byte, and both read the visible registers
only. -/
theorem transientRegistersAreNeverRead : Obligations.TransientRegistersAreNeverRead := by
  intro s s' h hcall
  have ⟨_, hinput, hcall', _⟩ := h
  cases hi : s.input with
  | nil =>
    rw [step_blocked hcall hi, step_blocked (hcall' ▸ hcall) (hinput ▸ hi)]
    exact answersAlike_next h
  | cons b rest =>
    rw [step_byte hcall hi, step_byte (hcall' ▸ hcall) (hinput ▸ hi)]
    exact frStep_answersAlike (h.setInput rest) b

end Sys2Proof.Machine
end

section
/-! SUPPORT. The parameters: what each operation and each step of the worker leaves in `cfg` (R6, R63). -/

namespace Sys2Proof.Machine

/-! ### The parts of an operation -/

theorem PipelineFrame.cfg_eq {s t : State} (h : PipelineFrame s t) : t.cfg = s.cfg := h.1

theorem catLookup_frame (s : State) : PipelineFrame s (catLookup s).1 := by
  unfold catLookup; split
  · exact unknownType_frame s
  · simp [PipelineFrame]

@[simp] theorem applySlot_cfg (sl : Slot) (p : List Byte) (s : State) : (applySlot sl p s).1.cfg = s.cfg := by
  unfold applySlot; split <;> rfl

/-- Of the seven transitions only `FR.Z_BREAK` does more than write framer registers and raise: it runs the pipeline. -/
theorem FrTransition.cfg_eq {s t : State} {b : Byte} (h : FrTransition s b t) : t.cfg = s.cfg := by
  cases h with
  | nMark | nData | sZero | sLit | sBad | zPerr => rfl
  | zBreak => exact (dpRun_frame (closeTelegram s)).cfg_eq

/-! ### Answers -/

/-- Where the answer is a next state, its parameters are `c`. -/
def NextCfg (c : Config) (a : Answer) : Prop := ∀ t, a = .next t → t.cfg = c

theorem nextCfg_next {c : Config} {t : State} (h : t.cfg = c) : NextCfg c (.next t) :=
  fun _ heq => by cases heq; exact h

theorem nextCfg_refused (c : Config) (r : Refusal) : NextCfg c (.refused r) := fun _ heq => by cases heq

theorem nextCfg_ite {c : Config} {p : Prop} [Decidable p] {a b : Answer} (ha : NextCfg c a) (hb : NextCfg c b) :
    NextCfg c (if p then a else b) := by
  split
  · exact ha
  · exact hb

/-- An append keeps the parameters where what follows it does (R102, R104, R107). -/
theorem nextCfg_append {s : State} {b : Byte} {g : State → State} (hg : ∀ t, (g t).cfg = t.cfg) :
    NextCfg s.cfg ((s.append b).thenNext g) := by
  intro t h
  obtain ⟨-, rfl⟩ := append_thenNext_next h
  exact hg _

/-! ### The operations -/

theorem runSlot_nextCfg (sl : Slot) (r : Result) (s : State) : NextCfg s.cfg (runSlot sl r s) := by
  have hslot := applySlot_cfg sl (payload s.tg) s
  unfold runSlot
  split <;> rename_i heq <;> rw [heq] at hslot <;> exact nextCfg_next hslot

theorem upUnpack_nextCfg (layout : Layout) (p : List Byte) (s : State) : NextCfg s.cfg (execUpUnpack layout p s) := by
  have hunpack := (unpack_frame layout p s).cfg_eq
  unfold execUpUnpack
  split <;> rename_i heq <;> rw [heq] at hunpack <;> exact nextCfg_next hunpack

theorem dpLen_nextCfg (s : State) : NextCfg s.cfg (execDpLen s) := by
  unfold execDpLen; split
  · exact nextCfg_refused _ _
  · exact nextCfg_next (dpLen_frame _ _ s).cfg_eq

theorem dpUnpack_nextCfg (s : State) : NextCfg s.cfg (execDpUnpack s) := by
  unfold execDpUnpack; split
  · exact nextCfg_refused _ _
  · exact nextCfg_next (dpUnpack_frame _ _ s).cfg_eq

theorem dpHandoff_nextCfg (s : State) : NextCfg s.cfg (execDpHandoff s) := by
  unfold execDpHandoff; split
  · exact nextCfg_refused _ _
  · rename_i k _; exact nextCfg_next (dpHandoff_frame k s).cfg_eq

theorem pxBit_nextCfg (v : RawVal) (mask : Nat) (s : State) : NextCfg s.cfg (execPxBit v mask s) := by
  unfold execPxBit; split
  · exact nextCfg_next rfl
  · exact nextCfg_refused _ _

theorem pxWide32_nextCfg (high low : RawVal) (s : State) : NextCfg s.cfg (execPxWide32 high low s) := by
  unfold execPxWide32; split
  · exact nextCfg_next rfl
  · exact nextCfg_refused _ _

/-- No operation writes the parameters. -/
theorem exec_nextCfg (i : Instr) (s : State) : NextCfg s.cfg (exec i s) := by
  cases i with
  | frNMark | frSZero | ckInit | ckUpdate | ckCompute | pxBitmap | hdHeader | reset => exact nextCfg_next rfl
  | frNData | frZPerr => exact nextCfg_ite (nextCfg_refused _ _) (nextCfg_append fun _ => rfl)
  | frSLit => exact nextCfg_append fun _ => rfl
  | frZBreak => exact nextCfg_next (dpRun_frame (closeTelegram s)).cfg_eq
  | frStep b => exact fun _ h => (frStep_transition h).cfg_eq
  | upU8 | upS8 | upU16 | upS16 | upStr | upSkip => exact runSlot_nextCfg _ _ s
  | upUnpack layout p => exact upUnpack_nextCfg layout p s
  | frSBad | ckCheck | hdParse => exact nextCfg_ite (nextCfg_refused _ _) (nextCfg_next rfl)
  | dpRun => exact nextCfg_next (dpRun_frame s).cfg_eq
  | dpPoll => exact nextCfg_next (dpPoll_frame s).cfg_eq
  | dpShort => exact nextCfg_next (dpShort_frame s).cfg_eq
  | dpReq => exact nextCfg_next (dpReq_frame s).cfg_eq
  | dpCksum => exact nextCfg_ite (nextCfg_refused _ _) (nextCfg_next (dpCksum_frame s).cfg_eq)
  | catLookup => exact nextCfg_next (catLookup_frame s).cfg_eq
  | dpLen => exact dpLen_nextCfg s
  | dpUnpack => exact dpUnpack_nextCfg s
  | dpHandoff => exact dpHandoff_nextCfg s
  | pxBit v mask => exact pxBit_nextCfg v mask s
  | pxWide32 high low => exact pxWide32_nextCfg high low s
  | pxSent | pxScale => exact nextCfg_ite (nextCfg_next rfl) (nextCfg_refused _ _)

/-! ### The step -/

/-- A step waits, or consumes a byte by one of the seven transitions, or runs the called operation with the port
emptied; none of these writes the parameters, and a call that is rejected gives no next state. -/
theorem step_nextCfg (s : State) : NextCfg s.cfg (step s) := by
  intro t hstep
  cases hcall : s.call with
  | none =>
    obtain ⟨-, rfl⟩ | ⟨b, rest, -, htrans⟩ := step_next_cases hcall hstep
    · rfl
    · exact htrans.cfg_eq
  | some c =>
    cases hdecode : decode c.word c.args with
    | ok i =>
      rw [step_call hcall hdecode] at hstep
      exact exec_nextCfg i (s.setCall none) t hstep
    | error e =>
      rw [step_call_rejected hcall hdecode] at hstep
      exact absurd hstep (rejectAnswer_ne_next e t)

/-- Settles O53: the parameters of a next state, operation by operation, and then for the step that runs them. -/
theorem tablesNeverChange : Obligations.TablesNeverChange :=
  ⟨exec_nextCfg, step_nextCfg⟩

end Sys2Proof.Machine
end

section
/-! SUPPORT. The encodings (30_encoding.md): framer keys, slot descriptors, words of two bytes, the header pattern. -/

namespace Sys2Proof

open Machine

/-! ### The key table (R72) -/

/-- Every row of the key table fixes the state code, none of them to 3. -/
theorem keyTable_code : ∀ r ∈ keyTable, keyCode r.mask = 3 ∧ keyCode r.pattern ≠ 3 := by decide

/-- Equal rows never overlap: on the bits they both fix, their patterns differ. -/
theorem keyTable_patterns_differ :
    keyTable.Pairwise fun r r' => r.priority = r'.priority → r.pattern &&& r'.mask ≠ r'.pattern &&& r.mask := by
  decide

theorem KeyRow.selects_iff {r : KeyRow} {key : BitVec 10} : r.selects key = true ↔ key &&& r.mask = r.pattern := by
  simp [KeyRow.selects]

/-- A row of the table selects keys of its own state code only. -/
theorem keyCode_of_selects {r : KeyRow} {key : BitVec 10} (hr : r ∈ keyTable) (hs : r.selects key = true) :
    keyCode key = keyCode r.pattern := by
  obtain ⟨hmask, -⟩ := keyTable_code r hr
  have hcode : keyCode (key &&& r.mask) = keyCode key &&& keyCode r.mask := BitVec.extractLsb'_and
  rw [KeyRow.selects_iff.mp hs, hmask] at hcode
  rw [hcode]
  exact BitVec.and_allOnes.symm

/-- Two rows that select one key agree on the bits they both fix. -/
theorem patterns_agree_of_selects {r r' : KeyRow} {key : BitVec 10} (hs : r.selects key = true)
    (hs' : r'.selects key = true) : r.pattern &&& r'.mask = r'.pattern &&& r.mask := by
  rw [← KeyRow.selects_iff.mp hs, ← KeyRow.selects_iff.mp hs', BitVec.and_assoc, BitVec.and_assoc,
    BitVec.and_comm r.mask]

/-- The search answers a row of the list that selects the key. -/
theorem bestRow_some {key : BitVec 10} {rows : List KeyRow} {r : KeyRow} (h : bestRow key rows = some r) :
    r ∈ rows ∧ r.selects key = true := by
  induction rows with
  | nil => cases h
  | cons r₀ rest ih =>
    have hrest (hr : bestRow key rest = some r) : r ∈ r₀ :: rest ∧ r.selects key = true :=
      have ⟨hmem, hsel⟩ := ih hr
      ⟨List.mem_cons_of_mem _ hmem, hsel⟩
    unfold bestRow at h
    cases hbest : bestRow key rest with
    | none =>
      obtain ⟨hsel, rfl⟩ : r₀.selects key = true ∧ r₀ = r := by simpa [hbest] using h
      exact ⟨List.mem_cons_self, hsel⟩
    | some best =>
      simp only [hbest] at h
      split at h <;> cases h
      · exact ⟨List.mem_cons_self, (Bool.and_eq_true_iff.mp ‹_›).1⟩
      · exact hrest hbest

/-- A key with state code 3 selects no transition (R21). -/
theorem decodeKey_eq_none {key : BitVec 10} (hc : keyCode key = 3) : decodeKey key = none := by
  refine Option.map_eq_none_iff.mpr (Option.eq_none_iff_forall_ne_some.mpr fun r h => ?_)
  obtain ⟨hmem, hsel⟩ := bestRow_some h
  obtain ⟨-, hpattern⟩ := keyTable_code r hmem
  exact hpattern ((keyCode_of_selects hmem hsel).symm.trans hc)

theorem keyCode_eq_three {key : BitVec 10} (h : 0x300 ≤ key.toNat) : keyCode key = 3 := by
  apply BitVec.eq_of_toNat_eq
  rw [keyCode, BitVec.extractLsb'_toNat, Nat.shiftRight_eq_div_pow]
  show key.toNat / 256 % 4 = 3
  omega

/-- The key of a framer state and a byte selects a well-formed transition. -/
theorem decodeKey_framerKey_wf (fs : FState) (b : Byte) : ∃ i, decodeKey (framerKey fs b) = some i ∧ i.wf = true := by
  cases fs with
  | normal =>
    refine ⟨_, decodeKey_normal b, ?_⟩
    split
    · rfl
    · simpa [Instr.wf] using ‹b ≠ markerByte›
  | markSeen =>
    refine ⟨_, decodeKey_markSeen b, ?_⟩
    split
    · rfl
    · split
      · rfl
      · simpa [Instr.wf] using And.intro ‹b ≠ zeroByte› ‹b ≠ markerByte›
  | markZero =>
    refine ⟨_, decodeKey_markZero b, ?_⟩
    split
    · rfl
    · simpa [Instr.wf] using ‹b ≠ zeroByte›

/-- Settles O3: a selected row fixes the state code of its key, and two rows that select one key agree on the bits they
both fix. -/
theorem keyTableIsTotalAndUnambiguous : Obligations.KeyTableIsTotalAndUnambiguous :=
  ⟨decodeKey_framerKey_wf, fun _ h => decodeKey_eq_none (keyCode_eq_three h),
    keyTable_patterns_differ.imp fun hdiffer hprio _ ⟨hs, hs'⟩ => hdiffer hprio (patterns_agree_of_selects hs hs')⟩

/-! ### Slot descriptors (R80, R81) -/

/-- A descriptor with a count is its kind code and its low byte. -/
theorem kind_or_count {d kind : Half} (h : d &&& 0xFF00 = kind) :
    kind ||| BitVec.ofNat 16 (d.extractLsb' 0 8).toNat = d := by
  have hlow : BitVec.ofNat 16 (d.extractLsb' 0 8).toNat = d &&& 0x00FF := by
    apply BitVec.eq_of_toNat_eq
    have hmod : d.toNat &&& 0xFF = d.toNat % 256 := Nat.and_two_pow_sub_one_eq_mod d.toNat 8
    simp [hmod]
    omega
  calc kind ||| BitVec.ofNat 16 (d.extractLsb' 0 8).toNat
      = d &&& (0xFF00 ||| 0x00FF) := by rw [hlow, ← h, BitVec.and_or_distrib_left]
    _ = d := BitVec.and_allOnes

/-- What a row of the slot table makes of a descriptor it matches has that descriptor, and a count in range. -/
theorem slotTable_encodes {d : Half} {r : SlotRow} (hr : r ∈ slotTable) (h : d &&& r.mask = r.pattern) :
    encodeSlot (r.make (d.extractLsb' 0 8).toNat) = d ∧ (r.make (d.extractLsb' 0 8).toNat).countInRange = true := by
  have hcount : (d.extractLsb' 0 8).toNat ≤ 255 := Nat.le_of_lt_succ (d.extractLsb' 0 8).isLt
  have hexact {p : Half} (hp : d &&& 0xFFFF = p) : p = d := hp.symm.trans BitVec.and_allOnes
  simp only [slotTable, List.mem_cons, List.not_mem_nil, or_false] at hr
  obtain rfl | rfl | rfl | rfl | rfl | rfl := hr
  · exact ⟨hexact h, rfl⟩
  · exact ⟨hexact h, rfl⟩
  · exact ⟨hexact h, rfl⟩
  · exact ⟨hexact h, rfl⟩
  · exact ⟨kind_or_count h, decide_eq_true hcount⟩
  · exact ⟨kind_or_count h, decide_eq_true hcount⟩

/-- A descriptor that decodes is the descriptor of its slot. -/
theorem encodeSlot_of_decodeSlot {d : Half} {sl : Slot} (h : decodeSlot d = some sl) :
    encodeSlot sl = d ∧ sl.countInRange = true := by
  obtain ⟨r, hfind, rfl⟩ := Option.map_eq_some_iff.mp h
  exact slotTable_encodes (List.mem_of_find?_eq_some hfind) (by simpa using List.find?_some hfind)

theorem decodeSlot_counted (b : Byte) :
    decodeSlot (encodeSlot (.str b.toNat)) = some (.str b.toNat) ∧
      decodeSlot (encodeSlot (.skip b.toNat)) = some (.skip b.toNat) := by
  revert b; decide

/-- A slot with its count in range survives its descriptor. -/
theorem decodeSlot_encodeSlot {sl : Slot} (h : sl.countInRange = true) : decodeSlot (encodeSlot sl) = some sl := by
  cases sl with
  | u8 | s8 | u16 | s16 => decide
  | str n =>
    have hdecode := (decodeSlot_counted (BitVec.ofNat 8 n)).1
    rwa [Laws.TableRow.toNat_ofCount (of_decide_eq_true h)] at hdecode
  | skip n =>
    have hdecode := (decodeSlot_counted (BitVec.ofNat 8 n)).2
    rwa [Laws.TableRow.toNat_ofCount (of_decide_eq_true h)] at hdecode

theorem decodeLayout_encodeLayout {layout : Layout} (h : layoutWf layout = true) :
    decodeLayout (encodeLayout layout) = some layout := by
  induction layout with
  | nil => rfl
  | cons sl rest ih =>
    obtain ⟨hsl, hrest⟩ : sl.countInRange = true ∧ layoutWf rest = true := by simpa [layoutWf] using h
    have hih : decodeLayout (rest.map encodeSlot) = some rest := ih hrest
    simp [encodeLayout, decodeLayout, decodeSlot_encodeSlot hsl, hih]

/-- Settles O58: slot by slot, through the six rows of the table of R80. -/
theorem layoutDescriptorsAgree : Obligations.LayoutDescriptorsAgree :=
  ⟨fun _ => decodeLayout_encodeLayout, fun _ _ => encodeSlot_of_decodeSlot⟩

/-! ### The header pattern (R74, R75) -/

@[simp] theorem requestFlag_rawDestination (rq : BitVec 1) (dst : BitVec 7) :
    requestFlag (rawDestination rq dst) = rq := BitVec.extractLsb'_append_eq_left

@[simp] theorem destination_rawDestination (rq : BitVec 1) (dst : BitVec 7) :
    destination (rawDestination rq dst) = dst := BitVec.extractLsb'_append_eq_right

theorem rawDestination_toNat (rq : BitVec 1) (dst : BitVec 7) :
    (rawDestination rq dst).toNat = 128 * rq.toNat + dst.toNat := by
  rw [rawDestination, BitVec.toNat_append, ← Nat.shiftLeft_add_eq_or_of_lt dst.isLt, Nat.shiftLeft_eq]
  omega

/-- The four bytes of a header give it back (R74, R75). -/
theorem headerOfBytes_headerBytes (h : Header) :
    headerOfBytes h.src (rawDestination h.rq h.dst) h.typ h.ofs = h := by
  simp [headerOfBytes]

/-- `HD.HEADER` is one write of the header registers. -/
theorem exec_hdHeader (h : Header) (s : State) :
    exec (.hdHeader h) s = .next { s with
      hdr := { src := h.src, dstraw := rawDestination h.rq h.dst, rq := h.rq, dst := h.dst, typ := h.typ, ofs := h.ofs,
               plen := if s.tg.length < 6 then s.hdr.plen else s.tg.length - 5 } } := by
  simp [exec, execHdHeader, headerRegs, State.setHdr]

/-- On a telegram that begins with the pattern `HD.HEADER` is `HD.PARSE` (R85). -/
theorem exec_hdHeader_eq_hdParse {h : Header} {s : State} {rest : List Byte} (htg : s.tg = headerBytes h ++ rest)
    (hrest : 2 ≤ rest.length) : exec (.hdHeader h) s = exec .hdParse s := by
  have hlen : ¬s.tg.length < 6 := by
    rw [htg]; simp [headerBytes]; omega
  simp only [exec, execHdHeader, execHdParse, hdParse, if_neg hlen]
  simp [htg, headerBytes, byteAt]

/-- Settles O35: the destination byte of the pattern is the one whose flag and destination `HD.PARSE` reads. -/
theorem headerPatternFillsTheRegisters : Obligations.HeaderPatternFillsTheRegisters :=
  fun s h => ⟨⟨rawDestination h.rq h.dst, rawDestination_toNat h.rq h.dst, exec_hdHeader h s⟩,
    fun _ => exec_hdHeader_eq_hdParse⟩

/-! ### Words of two bytes -/

theorem be16_eq_append (hi lo : Byte) : be16 hi lo = hi ++ lo := by
  rw [BitVec.append_def, BitVec.shiftLeftZeroExtend_eq]
  rfl

/-- The two bytes of a word are decoded as that word. -/
theorem decode_halfBytes (w : Half) (a : Args) : decode (halfBytes w) a = decodeHalf w := by
  have hjoin : w.extractLsb' 8 8 ++ w.extractLsb' 0 8 = w.extractLsb' 0 16 :=
    BitVec.extractLsb'_append_extractLsb'_eq_extractLsb' rfl
  have hw : be16 (w.extractLsb' 8 8) (w.extractLsb' 0 8) = w := by
    rw [be16_eq_append, hjoin, BitVec.extractLsb'_eq_self]
  exact congrArg decodeHalf hw

/-- The word of a framer key decodes to the transition the key selects (R72). -/
theorem decode_keyWord {fs : FState} {b : Byte} {i : Instr} (h : decodeKey (framerKey fs b) = some i) (a : Args) :
    decode (halfBytes (keyWord fs b)) a = .ok i := by
  have hkey : (keyWord fs b).extractLsb' 0 10 = framerKey fs b :=
    (BitVec.extractLsb'_setWidth_of_le (by decide)).trans BitVec.extractLsb'_eq_self
  have hlt : (keyWord fs b).toNat < 0x400 := by
    rw [keyWord, BitVec.toNat_setWidth]
    exact lt_of_le_of_lt (Nat.mod_le _ _) (framerKey fs b).isLt
  rw [decode_halfBytes, decodeHalf, if_pos hlt, hkey, h]

/-- No descriptor is a framer key: its kind code is not 0 in the top six bits. -/
theorem encodeSlot_toNat_ge (sl : Slot) : 0x400 ≤ (encodeSlot sl).toNat := by
  cases sl with
  | u8 | s8 | u16 | s16 => decide
  | str n => exact le_trans (by decide : 0x400 ≤ 0x7300) (BitVec.toNat_or .. ▸ Nat.left_le_or)
  | skip n => exact le_trans (by decide : 0x400 ≤ 0x7800) (BitVec.toNat_or .. ▸ Nat.left_le_or)

/-- The descriptor of a slot, as a word, decodes to the slot's operation (R80). -/
theorem decode_encodeSlot {sl : Slot} (h : sl.countInRange = true) (a : Args) :
    decode (halfBytes (encodeSlot sl)) a = .ok (slotInstr sl) := by
  rw [decode_halfBytes, decodeHalf, if_neg (Nat.not_lt.mpr (encodeSlot_toNat_ge sl)), decodeSlot_encodeSlot h]

/-! ### Decode and encode -/

/-- Settles O57, format by format: a framer key (R72), a slot descriptor (R80), an identifier with its typed operands
(R85), a header pattern (R74). -/
theorem decodeOfEncodeIsTheOperation : Obligations.DecodeOfEncodeIsTheOperation := by
  intro i hwf
  cases i with
  | frNMark => exact decode_keyWord (decodeKey_normal _) _
  | frNData b =>
    have hb : b ≠ markerByte := by simpa [Instr.wf] using hwf
    exact decode_keyWord (by rw [decodeKey_normal, if_neg hb]) _
  | frSZero => exact decode_keyWord (decodeKey_markSeen _) _
  | frSLit => exact decode_keyWord (decodeKey_markSeen _) _
  | frSBad b =>
    obtain ⟨hz, hm⟩ : b ≠ zeroByte ∧ b ≠ markerByte := by simpa [Instr.wf] using hwf
    exact decode_keyWord (by rw [decodeKey_markSeen, if_neg hz, if_neg hm]) _
  | frZBreak => exact decode_keyWord (decodeKey_markZero _) _
  | frZPerr b =>
    have hb : b ≠ zeroByte := by simpa [Instr.wf] using hwf
    exact decode_keyWord (by rw [decodeKey_markZero, if_neg hb]) _
  | upU8 => exact decode_encodeSlot (sl := .u8) rfl _
  | upS8 => exact decode_encodeSlot (sl := .s8) rfl _
  | upU16 => exact decode_encodeSlot (sl := .u16) rfl _
  | upS16 => exact decode_encodeSlot (sl := .s16) rfl _
  | upStr n => exact decode_encodeSlot (sl := .str n) hwf _
  | upSkip n => exact decode_encodeSlot (sl := .skip n) hwf _
  | frStep | ckInit | ckUpdate | ckCompute | ckCheck | dpRun | dpPoll | dpShort | hdParse | dpReq | dpCksum | catLookup
  | dpLen | dpUnpack | dpHandoff | upUnpack | pxBit | pxWide32 | pxBitmap | pxSent | pxScale | reset => rfl
  | hdHeader h => exact congrArg (Except.ok ∘ Instr.hdHeader) (headerOfBytes_headerBytes h)

/-- Settles O59: each table word by evaluation, and two identifiers for every typed operand. -/
theorem sampleWordsDecode : Obligations.SampleWordsDecode := by
  refine ⟨?_, ?_, ?_, ?_, ?_, ?_, ?_, ?_, ?_, ?_, ?_, fun _ => rfl, fun _ => rfl⟩ <;> decide

end Sys2Proof
end

section
/-! SUPPORT. The framer's keys: the state code and the byte of a key, and the transition they select (R72). -/

namespace Sys2Proof

open Machine

/-- A key is its state code and its byte. -/
theorem key_eq_append_iff {key : BitVec 10} {c : BitVec 2} {b : Byte} :
    key = c ++ b ↔ keyCode key = c ∧ keyByte key = b := by
  constructor
  · rintro rfl
    exact ⟨BitVec.extractLsb'_append_eq_left, BitVec.extractLsb'_append_eq_right⟩
  · rintro ⟨rfl, rfl⟩
    have hjoin : keyCode key ++ keyByte key = key.extractLsb' 0 10 :=
      BitVec.extractLsb'_append_extractLsb'_eq_extractLsb' rfl
    rw [hjoin, BitVec.extractLsb'_eq_self]

/-- A match under the full mask fixes the state code and the byte. -/
theorem match_fullMask_iff {key : BitVec 10} (p : BitVec 10) (c : BitVec 2) (b : Byte) (hp : p = c ++ b) :
    key &&& 0x3FF = p ↔ keyCode key = c ∧ keyByte key = b := by
  have hfull : key &&& 0x3FF = key := BitVec.and_allOnes
  rw [hfull, hp, key_eq_append_iff]

/-- A match under the mask of bits 9 and 8 fixes the state code only. -/
theorem match_codeMask_iff {key : BitVec 10} (p : BitVec 10) (c : BitVec 2) (hp : p = c ++ (0 : Byte)) :
    key &&& 0x300 = p ↔ keyCode key = c := by
  have hcode : keyCode (key &&& 0x300) = keyCode key := BitVec.extractLsb'_and.trans BitVec.and_allOnes
  have hbyte : keyByte (key &&& 0x300) = 0 := BitVec.extractLsb'_and.trans BitVec.and_zero
  rw [hp, key_eq_append_iff, hcode, hbyte]
  simp

/-- A key of code 0, 1 or 2 selects a transition of the state with that code; a key of code 3 selects none (R21, R72). -/
theorem decodeKey_eq_some_iff {key : BitVec 10} {i : Instr} :
    decodeKey key = some i ↔
      (keyCode key = 0 ∧ (if keyByte key = markerByte then .frNMark else .frNData (keyByte key)) = i) ∨
      (keyCode key = 1 ∧ (if keyByte key = zeroByte then .frSZero
        else if keyByte key = markerByte then .frSLit else .frSBad (keyByte key)) = i) ∨
      (keyCode key = 2 ∧ (if keyByte key = zeroByte then .frZBreak else .frZPerr (keyByte key)) = i) := by
  have hkey {c : BitVec 2} (hc : keyCode key = c) : key = c ++ keyByte key := key_eq_append_iff.mpr ⟨hc, rfl⟩
  have hcodes : ∀ c : BitVec 2, c = 0 ∨ c = 1 ∨ c = 2 ∨ c = 3 := by decide
  obtain hc | hc | hc | hc := hcodes (keyCode key)
  · have h : decodeKey key = _ := (congrArg decodeKey (hkey hc)).trans (decodeKey_normal (keyByte key))
    simp [h, hc]
  · have h : decodeKey key = _ := (congrArg decodeKey (hkey hc)).trans (decodeKey_markSeen (keyByte key))
    simp [h, hc]
  · have h : decodeKey key = _ := (congrArg decodeKey (hkey hc)).trans (decodeKey_markZero (keyByte key))
    simp [h, hc]
  · simp [decodeKey_eq_none hc, hc]

/-! The seven rows of the table: the match and mask of each, less the rows of higher priority. -/

theorem decodeKey_frNMark_iff {key : BitVec 10} : decodeKey key = some .frNMark ↔ key &&& 0x3FF = 0x0FF := by
  rw [match_fullMask_iff 0x0FF 0 0xFF rfl, decodeKey_eq_some_iff]
  simp [ite_eq_iff]

theorem decodeKey_frNData_iff {key : BitVec 10} {b : Byte} : decodeKey key = some (.frNData b) ↔
    key &&& 0x300 = 0x000 ∧ key &&& 0x3FF ≠ 0x0FF ∧ b = keyByte key := by
  rw [match_codeMask_iff 0x000 0 rfl, ne_eq, match_fullMask_iff 0x0FF 0 0xFF rfl, decodeKey_eq_some_iff,
    eq_comm (a := b)]
  simp +contextual [ite_eq_iff]

theorem decodeKey_frSZero_iff {key : BitVec 10} : decodeKey key = some .frSZero ↔ key &&& 0x3FF = 0x100 := by
  rw [match_fullMask_iff 0x100 1 0x00 rfl, decodeKey_eq_some_iff]
  simp [ite_eq_iff]

theorem decodeKey_frSLit_iff {key : BitVec 10} : decodeKey key = some .frSLit ↔ key &&& 0x3FF = 0x1FF := by
  rw [match_fullMask_iff 0x1FF 1 0xFF rfl, decodeKey_eq_some_iff]
  simp +contextual [ite_eq_iff]

theorem decodeKey_frSBad_iff {key : BitVec 10} {b : Byte} : decodeKey key = some (.frSBad b) ↔
    key &&& 0x300 = 0x100 ∧ key &&& 0x3FF ≠ 0x100 ∧ key &&& 0x3FF ≠ 0x1FF ∧ b = keyByte key := by
  rw [match_codeMask_iff 0x100 1 rfl, ne_eq, match_fullMask_iff 0x100 1 0x00 rfl, ne_eq,
    match_fullMask_iff 0x1FF 1 0xFF rfl, decodeKey_eq_some_iff, eq_comm (a := b)]
  simp +contextual [ite_eq_iff]

theorem decodeKey_frZBreak_iff {key : BitVec 10} : decodeKey key = some .frZBreak ↔ key &&& 0x3FF = 0x200 := by
  rw [match_fullMask_iff 0x200 2 0x00 rfl, decodeKey_eq_some_iff]
  simp [ite_eq_iff]

theorem decodeKey_frZPerr_iff {key : BitVec 10} {b : Byte} : decodeKey key = some (.frZPerr b) ↔
    key &&& 0x300 = 0x200 ∧ key &&& 0x3FF ≠ 0x200 ∧ b = keyByte key := by
  rw [match_codeMask_iff 0x200 2 rfl, ne_eq, match_fullMask_iff 0x200 2 0x00 rfl, decodeKey_eq_some_iff,
    eq_comm (a := b)]
  simp +contextual [ite_eq_iff]

end Sys2Proof
end

section
/-! SUPPORT. What each framer transition answers (R101 to R108). -/

namespace Sys2Proof.Machine

theorem append_room {s : State} (h : s.cfg.bufCap ≠ some s.buf.length) (b : Byte) :
    s.append b = .next (s.setBuf (s.buf ++ [b])) := by
  rw [append_eq, if_neg h]; rfl

theorem append_full {s : State} (h : s.cfg.bufCap = some s.buf.length) (b : Byte) :
    s.append b = .fault .bufferOverflow := by
  rw [append_eq, if_pos h]

theorem exec_frNData {b : Byte} (hb : b ≠ markerByte) (s : State) :
    exec (.frNData b) s = (s.append b).thenNext (·.setFs .normal) :=
  if_neg hb

theorem exec_frNData_room {s : State} {b : Byte} (hb : b ≠ markerByte) (h : s.cfg.bufCap ≠ some s.buf.length) :
    exec (.frNData b) s = .next ((s.setBuf (s.buf ++ [b])).setFs .normal) := by
  rw [exec_frNData hb, append_room h, thenNext_next]

theorem exec_frNData_full {s : State} {b : Byte} (hb : b ≠ markerByte) (h : s.cfg.bufCap = some s.buf.length) :
    exec (.frNData b) s = .fault .bufferOverflow := by
  rw [exec_frNData hb, append_full h, thenNext_fault]

theorem exec_frSLit_room {s : State} (h : s.cfg.bufCap ≠ some s.buf.length) :
    exec .frSLit s = .next ((s.setBuf (s.buf ++ [markerByte])).setFs .normal) := by
  rw [exec, execFrSLit, append_room h, thenNext_next]

theorem exec_frSLit_full {s : State} (h : s.cfg.bufCap = some s.buf.length) :
    exec .frSLit s = .fault .bufferOverflow := by
  rw [exec, execFrSLit, append_full h, thenNext_fault]

theorem exec_frSBad {b : Byte} (hz : b ≠ zeroByte) (hm : b ≠ markerByte) (s : State) :
    exec (.frSBad b) s = .next ((s.raise .malformedMarker [b.toNat]).setFs .normal) :=
  if_neg (not_or.mpr ⟨hz, hm⟩)

theorem exec_frZPerr {b : Byte} (hb : b ≠ zeroByte) (s : State) :
    exec (.frZPerr b) s = (s.append b).thenNext fun s => (s.setFs .normal).raise .parityGlitch [b.toNat] :=
  if_neg hb

theorem exec_frZPerr_room {s : State} {b : Byte} (hb : b ≠ zeroByte) (h : s.cfg.bufCap ≠ some s.buf.length) :
    exec (.frZPerr b) s =
      .next (((s.setBuf (s.buf ++ [b])).setFs .normal).raise .parityGlitch [b.toNat]) := by
  rw [exec_frZPerr hb, append_room h, thenNext_next]

theorem exec_frZPerr_full {s : State} {b : Byte} (hb : b ≠ zeroByte) (h : s.cfg.bufCap = some s.buf.length) :
    exec (.frZPerr b) s = .fault .bufferOverflow := by
  rw [exec_frZPerr hb, append_full h, thenNext_fault]

/-- The pipeline leaves the latch as it was, so `DP.RUN` and `FR.Z_BREAK` differ in the latch only (R106, R162). -/
theorem dpRun_setRes (s : State) (r : Result) : ((dpRun s).1.setRes r).setRes s.res = (dpRun s).1 := by
  obtain ⟨-, -, -, -, -, -, hres, -⟩ := dpRun_frame s
  rw [← hres]; rfl

/-- Settles O5: the row of the key table, and one register write. -/
theorem markerInNormalIsHeld : Obligations.MarkerInNormalIsHeld :=
  ⟨fun _ => decodeKey_frNMark_iff, fun _ => rfl⟩

/-- Settles O6: the row of the key table, and the append with room and without. -/
theorem dataByteInNormalIsAppended : Obligations.DataByteInNormalIsAppended :=
  ⟨fun _ _ => decodeKey_frNData_iff, fun _ _ => exec_frNData_room, fun _ _ => exec_frNData_full⟩

/-- Settles O7: the row of the key table, and one register write. -/
theorem zeroAfterMarkerIsHeld : Obligations.ZeroAfterMarkerIsHeld :=
  ⟨fun _ => decodeKey_frSZero_iff, fun _ => rfl⟩

/-- Settles O8: the row of the key table, and the append with room and without. -/
theorem doubledMarkerAppendsOneLiteral : Obligations.DoubledMarkerAppendsOneLiteral :=
  ⟨fun _ => decodeKey_frSLit_iff, fun _ => exec_frSLit_room, fun _ => exec_frSLit_full⟩

/-- Settles O9: the row of the key table, and one diagnostic. -/
theorem malformedMarkerIsDiscarded : Obligations.MalformedMarkerIsDiscarded :=
  ⟨fun _ _ => decodeKey_frSBad_iff, fun s _ hz hm => exec_frSBad hz hm s⟩

/-- Settles O10: `FR.Z_BREAK` is the pipeline on the closed telegram, and the pipeline leaves the framer's registers and the
latch alone. -/
theorem breakEmitsTheBufferAndRunsThePipeline : Obligations.BreakEmitsTheBufferAndRunsThePipeline := by
  refine ⟨fun _ => decodeKey_frZBreak_iff, fun s => ?_⟩
  obtain ⟨-, -, -, hfs, hbuf, -⟩ := dpRun_frame (closeTelegram s)
  exact ⟨_, rfl, congrArg _ (dpRun_setRes (closeTelegram s) _).symm, hfs, hbuf⟩

/-- Settles O11: the row of the key table, and the append with room and without. -/
theorem parityMarkedByteIsAppended : Obligations.ParityMarkedByteIsAppended :=
  ⟨fun _ _ => decodeKey_frZPerr_iff, fun _ _ => exec_frZPerr_room, fun _ _ => exec_frZPerr_full⟩

end Sys2Proof.Machine
end

section
/-! SUPPORT. `FR.STEP` and the byte step: which transition answers, when it faults, and what it reads (R100, R108). -/

namespace Sys2Proof.Machine

/-! ### The two kinds of transition -/

/-- The transitions that append a byte to the buffer (R102, R104, R107). -/
def Appends (i : Instr) (b : Byte) : Prop := i = .frNData b ∨ i = .frSLit ∨ i = .frZPerr b

/-- The transitions that leave the buffer alone or clear it (R101, R103, R105, R106). -/
def NeverAppends (i : Instr) (b : Byte) : Prop := i = .frNMark ∨ i = .frSZero ∨ i = .frSBad b ∨ i = .frZBreak

/-- A key selects a transition of one of the two kinds. -/
theorem decodeKey_appends_or_not {fs : FState} {b : Byte} {i : Instr} (h : decodeKey (framerKey fs b) = some i) :
    Appends i b ∨ NeverAppends i b := by
  simp only [decodeKey_eq_some_iff, keyByte_framerKey, ite_eq_iff] at h
  unfold Appends NeverAppends
  tauto

/-- A transition that appends answers a next state with room in the buffer. -/
theorem Appends.exec_room {i : Instr} {b : Byte} {s : State} (h : Appends i b) (hwf : i.wf = true)
    (hroom : s.cfg.bufCap ≠ some s.buf.length) : ∃ t, exec i s = .next t := by
  obtain rfl | rfl | rfl := h
  · exact ⟨_, exec_frNData_room (by simpa [Instr.wf] using hwf) hroom⟩
  · exact ⟨_, exec_frSLit_room hroom⟩
  · exact ⟨_, exec_frZPerr_room (by simpa [Instr.wf] using hwf) hroom⟩

/-- A transition that appends faults on a full buffer (R108). -/
theorem Appends.exec_full {i : Instr} {b : Byte} {s : State} (h : Appends i b) (hwf : i.wf = true)
    (hfull : s.cfg.bufCap = some s.buf.length) : exec i s = .fault .bufferOverflow := by
  obtain rfl | rfl | rfl := h
  · exact exec_frNData_full (by simpa [Instr.wf] using hwf) hfull
  · exact exec_frSLit_full hfull
  · exact exec_frZPerr_full (by simpa [Instr.wf] using hwf) hfull

/-- A transition that does not append answers a next state whatever the buffer holds. -/
theorem NeverAppends.exec_next {i : Instr} {b : Byte} {s : State} (h : NeverAppends i b) (hwf : i.wf = true) :
    ∃ t, exec i s = .next t := by
  obtain rfl | rfl | rfl | rfl := h
  · exact ⟨_, rfl⟩
  · exact ⟨_, rfl⟩
  · obtain ⟨hz, hm⟩ : b ≠ zeroByte ∧ b ≠ markerByte := by simpa [Instr.wf] using hwf
    exact ⟨_, exec_frSBad hz hm s⟩
  · exact ⟨_, rfl⟩

/-- A selected transition is well-formed. -/
theorem decodeKey_wf {fs : FState} {b : Byte} {i : Instr} (h : decodeKey (framerKey fs b) = some i) : i.wf = true := by
  obtain ⟨j, hj, hwf⟩ := decodeKey_framerKey_wf fs b
  rw [h] at hj
  cases hj; exact hwf

/-- `i` answers a next state, or it appends and the buffer is full. -/
theorem exec_next_or_full {s : State} {b : Byte} {i : Instr} (h : decodeKey (framerKey s.fs b) = some i) :
    (∃ t, exec i s = .next t) ∨
      (exec i s = .fault .bufferOverflow ∧ s.cfg.bufCap = some s.buf.length ∧ Appends i b) := by
  obtain ha | hn := decodeKey_appends_or_not h
  · by_cases hfull : s.cfg.bufCap = some s.buf.length
    · exact .inr ⟨ha.exec_full (decodeKey_wf h) hfull, hfull, ha⟩
    · exact .inl (ha.exec_room (decodeKey_wf h) hfull)
  · exact .inl (hn.exec_next (decodeKey_wf h))

/-! ### `FR.STEP` -/

/-- `FR.STEP` runs the transition that the key of the framer state and the byte selects (R100). -/
theorem frStep_eq_selected {s : State} {b : Byte} {i : Instr} (h : decodeKey (framerKey s.fs b) = some i) :
    exec (.frStep b) s = exec i s := by
  cases hfs : s.fs with
  | normal =>
    rw [hfs, decodeKey_normal] at h
    cases h; simp only [exec, execFrStep, hfs]; split <;> rfl
  | markSeen =>
    rw [hfs, decodeKey_markSeen] at h
    cases h; simp only [exec, execFrStep, hfs]; split <;> [rfl; split <;> rfl]
  | markZero =>
    rw [hfs, decodeKey_markZero] at h
    cases h; simp only [exec, execFrStep, hfs]; split <;> rfl

/-- `FR.STEP` answers a next state, or faults on a full buffer. -/
theorem frStep_next_or_full (s : State) (b : Byte) :
    (∃ t, exec (.frStep b) s = .next t) ∨
      (exec (.frStep b) s = .fault .bufferOverflow ∧ s.cfg.bufCap = some s.buf.length) := by
  obtain ⟨i, hkey, -⟩ := decodeKey_framerKey_wf s.fs b
  rw [frStep_eq_selected hkey]
  exact (exec_next_or_full hkey).imp_right fun ⟨hfault, hfull, _⟩ => ⟨hfault, hfull⟩

/-- `FR.STEP` takes every transition that the state and the byte allow: with `frStep_transition`, exactly these. -/
theorem FrTransition.exec_frStep {s t : State} {b : Byte} (h : FrTransition s b t) : exec (.frStep b) s = .next t := by
  cases h with
  | nMark hfs hb => subst hb; rw [frStep_eq_selected (hfs ▸ decodeKey_normal _)]; rfl
  | nData hfs hb hroom =>
    rw [frStep_eq_selected (hfs ▸ decodeKey_normal b), if_neg hb, exec_frNData_room hb hroom]
  | sZero hfs hb => subst hb; rw [frStep_eq_selected (hfs ▸ decodeKey_markSeen _)]; rfl
  | sLit hfs hb hroom =>
    subst hb; rw [frStep_eq_selected (hfs ▸ decodeKey_markSeen _)]; exact exec_frSLit_room hroom
  | sBad hfs hz hm =>
    rw [frStep_eq_selected (hfs ▸ decodeKey_markSeen b), if_neg hz, if_neg hm, exec_frSBad hz hm]
  | zBreak hfs hb => subst hb; rw [frStep_eq_selected (hfs ▸ decodeKey_markZero _)]; rfl
  | zPerr hfs hb hroom =>
    rw [frStep_eq_selected (hfs ▸ decodeKey_markZero b), if_neg hb, exec_frZPerr_room hb hroom]

/-- The two states agree on all that `FR.STEP` may read beside its byte (R100). -/
def SameFramer (s s' : State) : Prop :=
  s.fs = s'.fs ∧ s.buf = s'.buf ∧ s.cfg.ckTable = s'.cfg.ckTable ∧ s.cfg.catalog = s'.cfg.catalog ∧
    s.cfg.bufCap = s'.cfg.bufCap

theorem SameFramer.symm {s s' : State} (h : SameFramer s s') : SameFramer s' s := by
  obtain ⟨hfs, hbuf, htable, hcatalog, hcap⟩ := h
  exact ⟨hfs.symm, hbuf.symm, htable.symm, hcatalog.symm, hcap.symm⟩

/-- From `s` to `t` and from `s'` to `t'` the framer goes the same way: to the same state and buffer, with the same
events and the stream left alone. -/
def SameMove (s t s' t' : State) : Prop :=
  ∃ evs, t'.fs = t.fs ∧ t'.buf = t.buf ∧ t.trace = s.trace ++ evs ∧ t'.trace = s'.trace ++ evs ∧
    t.input = s.input ∧ t'.input = s'.input

/-- A break closes the same telegram, and the pipeline reads it and the tables only (R106, R163). -/
theorem sameMove_break {s s' : State} (h : SameFramer s s') :
    SameMove s (dpRun (closeTelegram s)).1 s' (dpRun (closeTelegram s')).1 := by
  obtain ⟨-, hbuf, htable, hcatalog, -⟩ := h
  obtain ⟨-, ginput, -, gfs, gbuf, -⟩ := dpRun_frame (closeTelegram s)
  obtain ⟨-, ginput', -, gfs', gbuf', -⟩ := dpRun_frame (closeTelegram s')
  have htrace := (dpRun_yields (closeTelegram s)).1
  have htrace' := (dpRun_yields (closeTelegram s')).1
  refine ⟨.telegram s.buf :: (pipelineResult s.cfg.ckTable s.cfg.catalog s.buf).1, gfs'.trans gfs.symm,
    gbuf'.trans gbuf.symm, ?_, ?_, ginput, ginput'⟩
  · rw [htrace, closeTelegram_trace, List.append_assoc]; rfl
  · rw [htrace', closeTelegram_trace, List.append_assoc, hbuf, htable, hcatalog]; rfl

/-- A state that agrees on what `FR.STEP` reads has a transition to match. -/
theorem FrTransition.sameMove {s t s' : State} {b : Byte} (h : FrTransition s b t) (hsame : SameFramer s s') :
    ∃ t', FrTransition s' b t' ∧ SameMove s t s' t' := by
  have ⟨hfs', hbuf, _, _, hcap⟩ := hsame
  have hroom' (hroom : s.cfg.bufCap ≠ some s.buf.length) : s'.cfg.bufCap ≠ some s'.buf.length := hcap ▸ hbuf ▸ hroom
  cases h with
  | nMark hfs hb => exact ⟨_, .nMark (hfs' ▸ hfs) hb, [], by simp [hbuf]⟩
  | nData hfs hb hroom => exact ⟨_, .nData (hfs' ▸ hfs) hb (hroom' hroom), [], by simp [hbuf]⟩
  | sZero hfs hb => exact ⟨_, .sZero (hfs' ▸ hfs) hb, [], by simp [hbuf]⟩
  | sLit hfs hb hroom => exact ⟨_, .sLit (hfs' ▸ hfs) hb (hroom' hroom), [], by simp [hbuf]⟩
  | sBad hfs hz hm => exact ⟨_, .sBad (hfs' ▸ hfs) hz hm, [.diag .malformedMarker [b.toNat]], by simp [hbuf]⟩
  | zBreak hfs hb => exact ⟨_, .zBreak (hfs' ▸ hfs) hb, sameMove_break hsame⟩
  | zPerr hfs hb hroom =>
    exact ⟨_, .zPerr (hfs' ▸ hfs) hb (hroom' hroom), [.diag .parityGlitch [b.toNat]], by simp [hbuf]⟩

/-- Where `FR.STEP` answers a next state, so it does from a state that agrees on what it reads, and moves the same way. -/
theorem frStep_sameMove {s t s' : State} {b : Byte} (hsame : SameFramer s s') (h : exec (.frStep b) s = .next t) :
    ∃ t', exec (.frStep b) s' = .next t' ∧ SameMove s t s' t' := by
  obtain ⟨t', htrans, hmove⟩ := (frStep_transition h).sameMove hsame
  exact ⟨t', htrans.exec_frStep, hmove⟩

/-- Where `FR.STEP` faults, so it does from a state that agrees on what it reads: a next state there would give one here. -/
theorem frStep_sameFault {s s' : State} {b : Byte} {r : Fault} (hsame : SameFramer s s')
    (h : exec (.frStep b) s = .fault r) : exec (.frStep b) s' = .fault r := by
  obtain ⟨t, ht⟩ | ⟨hfault, -⟩ := frStep_next_or_full s b
  · rw [ht] at h; cases h
  · rw [hfault] at h
    cases h
    obtain ⟨t', ht'⟩ | ⟨hfault', -⟩ := frStep_next_or_full s' b
    · obtain ⟨t, ht, -⟩ := frStep_sameMove hsame.symm ht'
      rw [ht] at hfault; cases hfault
    · exact hfault'

theorem frStep_ne_refused (s : State) (b : Byte) (r : Refusal) : exec (.frStep b) s ≠ .refused r := by
  intro h
  obtain ⟨t, ht⟩ | ⟨hfault, -⟩ := frStep_next_or_full s b
  · rw [ht] at h; cases h
  · rw [hfault] at h; cases h

theorem frStep_next {s : State} (b : Byte) (hroom : s.cfg.bufCap ≠ some s.buf.length) :
    ∃ t, exec (.frStep b) s = .next t :=
  (frStep_next_or_full s b).resolve_right fun ⟨_, hfull⟩ => hroom hfull

/-- Settles O2: the case table is the definition of `FR.STEP`; the rest follows from its seven transitions. -/
theorem frStepTakesTheOneTransition : Obligations.FrStepTakesTheOneTransition := by
  refine ⟨fun _ => ⟨_, rfl⟩, fun _ _ => rfl, fun s b hcap => frStep_next b (by simp [hcap]), ?_⟩
  intro s s' b hfs hbuf htable hcatalog hcap
  have hsame : SameFramer s s' := ⟨hfs, hbuf, htable, hcatalog, hcap⟩
  refine ⟨fun t ht => ?_, fun _ => frStep_sameFault hsame, frStep_ne_refused s b⟩
  obtain ⟨t', ht', evs, hmove⟩ := frStep_sameMove hsame ht
  exact ⟨t', evs, ht', hmove⟩

/-! ### The byte step -/

/-- With no call pending a step answers a next state, or faults on an append to a full buffer. -/
theorem step_next_or_full {s : State} (hcall : s.call = none) :
    (∃ t, step s = .next t) ∨
      (step s = .fault .bufferOverflow ∧ s.cfg.bufCap = some s.buf.length ∧
        ∃ b rest i, s.input = b :: rest ∧ decodeKey (framerKey s.fs b) = some i ∧ Appends i b) := by
  cases hinput : s.input with
  | nil => exact .inl ⟨s, step_blocked hcall hinput⟩
  | cons b rest =>
    obtain ⟨i, hkey, -⟩ := decodeKey_framerKey_wf s.fs b
    rw [step_key hcall hinput hkey]
    exact (exec_next_or_full (s := s.setInput rest) hkey).imp_right fun ⟨hfault, hfull, ha⟩ =>
      ⟨hfault, hfull, b, rest, i, rfl, hkey, ha⟩

/-- Settles O4: a step waits or runs the transition its key selects, which appends or does not. -/
theorem byteStepStopsOnlyOnAFullBuffer : Obligations.ByteStepStopsOnlyOnAFullBuffer := by
  intro s hcall
  have hcases := step_next_or_full hcall
  have hroom (h : s.cfg.bufCap ≠ some s.buf.length) : ∃ t, step s = .next t :=
    hcases.resolve_right fun ⟨_, hfull, _⟩ => h hfull
  refine ⟨fun hcap => hroom (by simp [hcap]), hroom, ?fault, ?transitions, ?refused⟩
  case fault =>
    intro r hr
    obtain ⟨t, ht⟩ | ⟨hfault, hfull, hbyte⟩ := hcases
    · rw [ht] at hr; cases hr
    · rw [hfault] at hr; cases hr; exact ⟨rfl, hfull, hbyte⟩
  case transitions =>
    intro b rest i hinput hkey
    rw [step_key hcall hinput hkey]
    exact ⟨fun hn => NeverAppends.exec_next hn (decodeKey_wf hkey),
      fun ha hfull => Appends.exec_full (s := s.setInput rest) ha (decodeKey_wf hkey) hfull⟩
  case refused =>
    intro r hr
    obtain ⟨t, ht⟩ | ⟨hfault, -⟩ := hcases
    · rw [ht] at hr; cases hr
    · rw [hfault] at hr; cases hr

end Sys2Proof.Machine
end

section
/-! SUPPORT. The account of the bytes a step consumes (R111). -/

namespace Sys2Proof.Machine

theorem telegramBytes_append (es fs : List Event) : telegramBytes (es ++ fs) = telegramBytes es + telegramBytes fs := by
  induction es with
  | nil => simp [telegramBytes]
  | cons e es ih => cases e <;> simp [telegramBytes, ih, Nat.add_assoc]

theorem telegramBytes_decodeResult (k : Nat) (e : Entry) (t : Telegram) : telegramBytes (decodeResult k e t).1 = 0 := by
  have hlength : telegramBytes (lengthEvents k (t.length - 5) e) = 0 := by
    unfold lengthEvents; split <;> rfl
  unfold decodeResult
  simp only
  split <;> simp [telegramBytes_append, telegramBytes, hlength]

/-- The pipeline emits no telegram (R150). -/
theorem telegramBytes_pipelineResult (tbl : CkTable) (catalog : List Entry) (t : Telegram) :
    telegramBytes (pipelineResult tbl catalog t).1 = 0 := by
  unfold pipelineResult
  simp only
  split
  · rfl
  split
  · rfl
  split
  · rfl
  split
  · rfl
  split
  · rfl
  split
  · rfl
  · exact telegramBytes_decodeResult _ _ t

/-- A byte leaves the rest of the stream alone. -/
theorem FrTransition.input_eq {s t : State} {b : Byte} (h : FrTransition s b t) : t.input = s.input := by
  cases h with
  | nMark | nData | sZero | sLit | sBad | zPerr => rfl
  | zBreak =>
    obtain ⟨-, hinput, -⟩ := dpRun_frame (closeTelegram s)
    exact hinput

/-- A break moves the buffer into the trace (R106). -/
theorem accounted_break (s : State) :
    (dpRun (closeTelegram s)).1.accounted = telegramBytes s.trace + s.buf.length := by
  obtain ⟨-, -, -, hfs, hbuf, -⟩ := dpRun_frame (closeTelegram s)
  have htrace := (dpRun_yields (closeTelegram s)).1
  have hempty : (closeTelegram s).buf = [] := rfl
  have hnormal : (closeTelegram s).fs = .normal := rfl
  rw [State.accounted, htrace, hfs, hbuf, hempty, hnormal, closeTelegram_trace]
  simp [telegramBytes_append, telegramBytes_pipelineResult, telegramBytes, pendingBytes]

/-- A malformed marker discards the marker and the byte after it (R105). -/
theorem discardedBytes_malformed {b : Byte} (hz : b ≠ zeroByte) (hm : b ≠ markerByte) :
    discardedBytes .markSeen b = 2 := by
  rw [discardedBytes, if_neg hz, if_neg hm]

/-- A parity mark is discarded, the byte after it is not (R107). -/
theorem discardedBytes_parityMark {b : Byte} (hz : b ≠ zeroByte) : discardedBytes .markZero b = 2 := if_neg hz

/-- Each transition holds or discards the one byte more that it consumes. -/
theorem FrTransition.accounted {s t : State} {b : Byte} (h : FrTransition s b t) :
    t.accounted + discardedBytes s.fs b = s.accounted + 1 := by
  cases h with
  | nMark hfs => simp [State.accounted, discardedBytes, pendingBytes, hfs]
  | nData hfs => simp [State.accounted, discardedBytes, pendingBytes, hfs, Nat.add_assoc]
  | sZero hfs hb => simp [State.accounted, discardedBytes, pendingBytes, hfs, hb]
  | sLit hfs hb => simp [State.accounted, discardedBytes, pendingBytes, hfs, hb, Nat.add_assoc]
  | sBad hfs hz hm =>
    rw [hfs, discardedBytes_malformed hz hm]
    simp [State.accounted, pendingBytes, hfs, telegramBytes_append, telegramBytes]
  | zBreak hfs hb =>
    rw [accounted_break]
    simp [State.accounted, discardedBytes, pendingBytes, hfs, hb]
  | zPerr hfs hz =>
    rw [hfs, discardedBytes_parityMark hz]
    simp [State.accounted, pendingBytes, hfs, telegramBytes_append, telegramBytes, Nat.add_assoc]

/-- Settles O13: the byte step is one of the seven transitions, on the stream less its first byte. -/
theorem consumedBytesAreAccountedFor : Obligations.ConsumedBytesAreAccountedFor := by
  intro s t b rest hcall hinput hstep
  rw [step_byte hcall hinput] at hstep
  have htrans := frStep_transition hstep
  exact ⟨htrans.input_eq, htrans.accounted⟩

end Sys2Proof.Machine
end

section
/-! SUPPORT. The stuffed stream of a telegram, byte by byte (R90, R110). -/

namespace Sys2Proof.Machine

/-! ### Runs of steps -/

/-- A run may be cut in two. -/
theorem runSteps_add {m n : Nat} {s t : State} (h : runSteps m s = .next t) : runSteps (m + n) s = runSteps n t := by
  induction m generalizing s with
  | zero => cases h; rw [Nat.zero_add]
  | succ m ih =>
    rw [Nat.add_right_comm, runSteps]
    rw [runSteps] at h
    cases hstep : step s with
    | next u => rw [hstep] at h; exact ih h
    | fault r => rw [hstep] at h; cases h
    | refused r => rw [hstep] at h; cases h

theorem runSteps_one {s t : State} (h : step s = .next t) : runSteps 1 s = .next t := by
  rw [runSteps, h]; rfl

/-- A transition is a step of the worker that consumes its byte. -/
theorem step_of_transition {s t : State} {b : Byte} {rest : List Byte} (hcall : s.call = none)
    (hinput : s.input = b :: rest) (h : FrTransition (s.setInput rest) b t) : step s = .next t :=
  (step_byte hcall hinput).trans h.exec_frStep

/-- Two transitions are two steps. -/
theorem runSteps_two {s t u : State} {b c : Byte} {rest : List Byte} (hcall : s.call = none)
    (hinput : s.input = b :: c :: rest) (h : FrTransition (s.setInput (c :: rest)) b t) (hcall' : t.call = none)
    (hinput' : t.input = c :: rest) (g : FrTransition (t.setInput rest) c u) : runSteps 2 s = .next u :=
  (runSteps_add (runSteps_one (step_of_transition hcall hinput h))).trans (runSteps_one (step_of_transition hcall' hinput' g))

/-! ### The parts of a stuffed stream -/

/-- The framer is between two bytes of a telegram: no call is pending and no marker is held. -/
def Receiving (s : State) : Prop := s.call = none ∧ s.fs = .normal

/-- `s` after the bytes `bs` have gone into the buffer, with `rest` still to come. -/
def State.received (s : State) (bs rest : List Byte) : State := { s with buf := s.buf ++ bs, input := rest }

/-- The stuffed form of one byte puts that byte in the buffer (R102, R104). -/
theorem runSteps_stuffByte {s : State} {b : Byte} {rest : List Byte} (hs : Receiving s)
    (hinput : s.input = stuffByte b ++ rest) (hroom : s.cfg.bufCap ≠ some s.buf.length) :
    runSteps (stuffByte b).length s = .next (s.received [b] rest) := by
  obtain ⟨hcall, hfs⟩ := hs
  have hback : s.received [b] rest = ((s.setInput rest).setBuf (s.buf ++ [b])).setFs .normal := by
    rw [← hfs]; rfl
  unfold stuffByte at hinput ⊢
  rw [hback]
  split at hinput
  · rename_i hb
    subst hb
    rw [if_pos rfl]
    exact runSteps_two hcall hinput (.nMark hfs rfl) hcall rfl (.sLit rfl rfl hroom)
  · rename_i hb
    rw [if_neg hb]
    exact runSteps_one (step_of_transition hcall hinput (.nData hfs hb hroom))

/-- The stuffed bytes of a telegram put that telegram in the buffer. -/
theorem runSteps_stuffBytes {s : State} {t : Telegram} {rest : List Byte} (hs : Receiving s)
    (hinput : s.input = t.flatMap stuffByte ++ rest)
    (hroom : ∀ cap, s.cfg.bufCap = some cap → s.buf.length + t.length ≤ cap) :
    runSteps (t.flatMap stuffByte).length s = .next (s.received t rest) := by
  induction t generalizing s with
  | nil =>
    obtain rfl : s.input = rest := hinput
    simp [runSteps, State.received]
  | cons b t ih =>
    rw [List.flatMap_cons, List.append_assoc] at hinput
    have hfirst : s.cfg.bufCap ≠ some s.buf.length := fun h => by simpa using hroom _ h
    have hrest (cap : Nat) (hcap : s.cfg.bufCap = some cap) : (s.buf ++ [b]).length + t.length ≤ cap := by
      have hall := hroom cap hcap
      rw [List.length_cons] at hall
      rw [List.length_append, List.length_singleton]
      omega
    rw [List.flatMap_cons, List.length_append, runSteps_add (runSteps_stuffByte hs hinput hfirst),
      ih (s := s.received [b] (t.flatMap stuffByte ++ rest)) hs rfl hrest]
    simp [State.received]

/-- The break sequence closes the telegram and runs the pipeline on it (R106). -/
theorem runSteps_break {s : State} {rest : List Byte} (hs : Receiving s) (hinput : s.input = breakSequence ++ rest) :
    runSteps breakSequence.length s = .next (dpRun (closeTelegram (s.setInput rest))).1 := by
  obtain ⟨hcall, hfs⟩ := hs
  have hheld : runSteps 2 s = .next ((s.setInput (zeroByte :: rest)).setFs .markZero) :=
    runSteps_two hcall hinput (.nMark hfs rfl) hcall rfl (.sZero rfl rfl)
  exact (runSteps_add hheld).trans (runSteps_one (step_of_transition hcall rfl (.zBreak rfl rfl)))

/-- Settles O12: the stuffed bytes fill the buffer with the telegram, the break sequence hands it to the pipeline, and the
pipeline's events are `pipelineResult`. -/
theorem stuffedTelegramIsFramedWhole : Obligations.StuffedTelegramIsFramedWhole := by
  intro s t rest hcall hfs hbuf hinput hcap
  rw [stuff, List.append_assoc] at hinput
  have hs : Receiving s := ⟨hcall, hfs⟩
  have hbytes := runSteps_stuffBytes hs hinput (by simpa [hbuf] using hcap)
  have hbreak := runSteps_break (s := s.received t (breakSequence ++ rest)) hs rfl
  have hclosed : closeTelegram ((s.received t (breakSequence ++ rest)).setInput rest) =
      closeTelegram (s.received t rest) := rfl
  obtain ⟨-, ginput, -, gfs, gbuf, -⟩ := dpRun_frame (closeTelegram (s.received t rest))
  have htrace := (dpRun_yields (closeTelegram (s.received t rest))).1
  refine ⟨(dpRun (closeTelegram (s.received t rest))).1, ?_, gfs, gbuf, ginput, ?_⟩
  · rw [stuff, List.length_append, runSteps_add hbytes, hbreak, hclosed]
  · rw [htrace, closeTelegram_trace]
    simp [State.received, closeTelegram, hbuf]

end Sys2Proof.Machine
end

section
/-! SUPPORT. The verdict of `CK.CHECK` on a telegram taken as its bytes and its last byte (R133), and the checksum as a
function of one of its bytes (R136). -/

namespace Sys2Proof.Machine

/-! ### The verdict -/

/-- The answer of `CK.CHECK` in its domain (R133). -/
theorem exec_ckCheck {s : State} (h : 2 ≤ s.tg.length) :
    exec .ckCheck s = .next ((ckCheckState s).setRes (.verdict (ckVerdict s.cfg.ckTable s.tg))) :=
  if_neg h.not_gt

/-- The last byte of a telegram that has one is the byte `CK.CHECK` compares with (R133). -/
theorem getLast?_eq_some_byteAt {t : Telegram} (h : t ≠ []) : t.getLast? = some (byteAt t (t.length - 1)) := by
  have hlast : t.length - 1 < t.length := Nat.sub_one_lt (mt List.length_eq_zero_iff.mp h)
  rw [List.getLast?_eq_getElem?, byteAt, List.getD_eq_getElem _ _ hlast, List.getElem?_eq_getElem hlast]

theorem ckVerdict_eq_ite_getLast? (tbl : CkTable) {t : Telegram} (h : t ≠ []) :
    ckVerdict tbl t = if t.getLast? = some (ckCompute tbl t.dropLast) then .valid else .invalid := by
  simp only [ckVerdict, summedBytes_eq, getLast?_eq_some_byteAt h, Option.some.injEq, eq_comm]

/-- The verdict on a telegram whose last byte is `last`. -/
theorem ckVerdict_snoc (tbl : CkTable) (bs : List Byte) (last : Byte) :
    ckVerdict tbl (bs ++ [last]) = if last = ckCompute tbl bs then .valid else .invalid := by
  simp [ckVerdict_eq_ite_getLast?]

theorem ckVerdict_snoc_valid_iff {tbl : CkTable} {bs : List Byte} {last : Byte} :
    ckVerdict tbl (bs ++ [last]) = .valid ↔ last = ckCompute tbl bs := by
  simp [ckVerdict_snoc]

theorem ckVerdict_snoc_invalid_iff {tbl : CkTable} {bs : List Byte} {last : Byte} :
    ckVerdict tbl (bs ++ [last]) = .invalid ↔ last ≠ ckCompute tbl bs := by
  simp [ckVerdict_snoc]

/-! ### One byte of the checksum -/

/-- With an injective table the checksum is an injective function of each byte: the byte is XORed in, and every later
update looks up a different entry and XORs in the same byte. -/
theorem TableInjective.eq_of_ckCompute_eq {tbl : CkTable} (htbl : TableInjective tbl) {xs ys : List Byte} {a b : Byte}
    (h : ckCompute tbl (xs ++ a :: ys) = ckCompute tbl (xs ++ b :: ys)) : a = b := by
  induction ys using List.reverseRecOn with
  | nil =>
    rw [ckCompute_snoc, ckCompute_snoc] at h
    exact (BitVec.xor_right_inj _).mp h
  | append_singleton ys y ih =>
    simp only [← List.cons_append, ← List.append_assoc, ckCompute_snoc] at h
    exact ih (htbl _ _ ((BitVec.xor_left_inj y).mp h))

/-- The first byte `CK_TABLE[0] XOR i` makes the second update look up the entry `i` (R131). -/
theorem ckCompute_lookup (tbl : CkTable) (i c : Byte) : ckCompute tbl [tbl.get 0 ^^^ i, c] = tbl.get i ^^^ c := by
  simp [ckCompute, ckUpdate]

/-! ### The obligations -/

/-- Settles O15: the whole answer is `setAcc 0`. -/
theorem checksumStartsAtZero : Obligations.ChecksumStartsAtZero :=
  ⟨fun _ => rfl, fun _ => rfl⟩

/-- Settles O16: `ckUpdate` looks up its first argument, which is the old accumulator. -/
theorem updateLooksUpTheOldAccumulator : Obligations.UpdateLooksUpTheOldAccumulator :=
  ⟨fun a => ⟨a.b, rfl⟩, fun _ _ => rfl⟩

/-- Settles O17: the fold is `ckCompute`, by its recurrence. -/
theorem computeIsTheLeftFold : Obligations.ComputeIsTheLeftFold :=
  ⟨ckCompute, ckCompute_nil, ckCompute_snoc, fun _ _ => rfl⟩

/-- Settles O18: the telegram is not empty, so its last byte is the one compared. -/
theorem checkComparesTheSumWithTheLastByte : Obligations.CheckComparesTheSumWithTheLastByte := by
  intro s hlen
  have hne : s.tg ≠ [] := List.ne_nil_of_length_pos (Nat.lt_of_lt_of_le Nat.two_pos hlen)
  rw [exec_ckCheck hlen, ckCheckState, summedBytes_eq, ckVerdict_eq_ite_getLast? _ hne]
  rfl

/-- Settles O19: were the changed telegram's last byte its checksum, the two checksums would agree. -/
theorem injectiveTableDetectsAOneByteChange : Obligations.InjectiveTableDetectsAOneByteChange := by
  intro tbl xs ys a b last htbl hab hvalid
  have hlast := ckVerdict_snoc_valid_iff.mp hvalid
  exact ckVerdict_snoc_invalid_iff.mpr fun hlast' => hab (htbl.eq_of_ckCompute_eq (hlast.symm.trans hlast'))

/-- Settles O20: two indexes with one entry, each reached by its own first byte, give the same checksum. -/
theorem nonInjectiveTableMissesAOneByteChange : Obligations.NonInjectiveTableMissesAOneByteChange := by
  intro tbl htbl
  simp only [TableInjective, not_forall] at htbl
  obtain ⟨i, j, hget, hij⟩ := htbl
  have hvalid (k : Byte) (hk : tbl.get k = tbl.get i) :
      ckVerdict tbl ([tbl.get 0 ^^^ k, 0] ++ [tbl.get i ^^^ 0]) = .valid :=
    ckVerdict_snoc_valid_iff.mpr (by rw [ckCompute_lookup, hk])
  exact ⟨tbl.get 0 ^^^ i, tbl.get 0 ^^^ j, 0, tbl.get i ^^^ 0, fun h => hij ((BitVec.xor_right_inj _).mp h),
    hvalid i rfl, hvalid j hget.symm⟩

/-- Settles O21: the one valid last byte is the checksum of the bytes before it. -/
theorem exactlyOneFinalByteIsValid : Obligations.ExactlyOneFinalByteIsValid := by
  intro tbl bs _
  exact ⟨ckCompute tbl bs, ckVerdict_snoc_valid_iff.mpr rfl, fun _ hy => ckVerdict_snoc_invalid_iff.mpr hy⟩

end Sys2Proof.Machine
end

section
/-! SUPPORT. `DP.RUN` as an operation, and what it decides for a valid response (R150, R163, R166). -/

namespace Sys2Proof.Machine

/-- `DP.RUN` always completes, and leaves its outcome in the latch. -/
theorem exec_dpRun (s : State) : exec .dpRun s = .next ((dpRun s).1.setRes (.pipeline (some (dpRun s).2))) := rfl

/-- Settles O31: the events and the outcome by `dpRun_yields`, the rest by `dpRun_frame`. -/
theorem pipelineFollowsTheOrderOfItsSteps : Obligations.PipelineFollowsTheOrderOfItsSteps := by
  intro s
  obtain ⟨htrace, houtcome⟩ := dpRun_yields s
  obtain ⟨hcfg, hinput, hcall, hfs, hbuf, htg, -⟩ := dpRun_frame s
  exact ⟨_, exec_dpRun s, htrace, by rw [State.setRes_res, houtcome], hfs, hbuf, htg, hcfg, hinput, hcall⟩

/-- Settles O32: from both states the events and the outcome are those of `pipelineResult`, which reads nothing else. -/
theorem pipelineEventsDependOnTelegramAndTables : Obligations.PipelineEventsDependOnTelegramAndTables := by
  intro s s' htg htable hcatalog
  obtain ⟨htrace, houtcome⟩ := dpRun_yields s
  obtain ⟨htrace', houtcome'⟩ := dpRun_yields s'
  rw [← htg, ← htable, ← hcatalog] at htrace' houtcome'
  exact ⟨_, _, _, exec_dpRun s, exec_dpRun s', htrace, htrace', by simp only [State.setRes_res, houtcome, houtcome']⟩

/-! ### The decision on a response -/

/-- What the pipeline decides: the outcome, the entry, the warning and the fields. -/
structure Decision where
  outcome : DpOutcome
  k : Option Nat
  lenwarn : Bool
  fields : List RawVal

/-- What a run of the pipeline, or of the rest of it, has decided. -/
def decisionOf (r : State × DpOutcome) : Decision := ⟨r.2, r.1.k, r.1.lenwarn, r.1.f⟩

/-- The decision of steps 7 to 9 with entry `e` at index `k`, on a payload `p` of length `plen` (R158, R159). -/
def entryDecision (k : Nat) (e : Entry) (plen : Nat) (p : List Byte) : Decision :=
  if layoutWidth e.layout ≤ p.length then
    ⟨.decoded, some k, lengthWarning plen e.expLen, fieldsFrom p 0 e.layout⟩
  else ⟨.layoutMismatch, some k, lengthWarning plen e.expLen, []⟩

/-- The decision of steps 6 to 9 on a type and a payload; a miss leaves the warning and the fields as they were (R156). -/
def typeDecision (catalog : List Entry) (typ : Byte) (plen : Nat) (p : List Byte) (lenwarn : Bool)
    (fields : List RawVal) : Decision :=
  match lookup typ catalog with
  | none => ⟨.unknownType, none, lenwarn, fields⟩
  | some (k, e) => entryDecision k e plen p

theorem decisionOf_dpDecode {s : State} {k : Nat} (e : Entry) (hk : s.k = some k) :
    decisionOf (dpDecode k e s) = entryDecision k e s.hdr.plen (payload s.tg) := by
  have hk' : (dpLen k e s).k = some k := by rw [dpLen_eq, ← hk]
  unfold dpDecode entryDecision
  by_cases hfit : layoutWidth e.layout ≤ (payload s.tg).length
  · rw [dpUnpack_fits k (by rwa [dpLen_tg]), if_pos hfit]
    simp [decisionOf, dpHandoff, hk']
  · obtain ⟨c, hc⟩ := dpUnpack_short (s := dpLen k e s) k (by rwa [dpLen_tg, ← not_le])
    rw [hc, if_neg hfit]
    simp [decisionOf, hk']

/-- Steps 6 to 10 decide by the catalog, the type and the payload alone (R156, R166). -/
theorem decisionOf_dpLookupAndDecode (s : State) :
    decisionOf (dpLookupAndDecode s) =
      typeDecision s.cfg.catalog s.hdr.typ s.hdr.plen (payload s.tg) s.lenwarn s.f := by
  unfold dpLookupAndDecode typeDecision
  cases lookup s.hdr.typ s.cfg.catalog with
  | none => rfl
  | some entry => exact decisionOf_dpDecode (s := s.setK (some entry.1)) entry.2 rfl

/-! ### A valid response -/

/-- `RQ` is the high bit of the destination byte (R75, R153). -/
theorem requestFlag_eq_one_iff {b : Byte} : requestFlag b = 1 ↔ b.getLsbD 7 = true := by
  revert b; decide

/-- `DST` is the destination byte with its high bit masked off (R75, R153). -/
theorem setWidth_destination (b : Byte) : (destination b).setWidth 8 = b &&& 0x7F := by
  revert b; decide

theorem ckVerdict_valid_iff {tbl : CkTable} {t : Telegram} :
    ckVerdict tbl t = .valid ↔ ckCompute tbl t.dropLast = byteAt t (t.length - 1) := by
  simp [ckVerdict, summedBytes_eq]

/-- A valid response of 6 or more bytes goes to the search (R151 to R155). -/
theorem dpRun_of_valid_response {s : State} (hlen : 6 ≤ s.tg.length) (hrq : requestFlag (byteAt s.tg 1) ≠ 1)
    (hck : ckVerdict s.cfg.ckTable s.tg = .valid) : dpRun s = dpLookupAndDecode (ckCheckState (hdParse s)) := by
  rw [dpRun_of_six_le hlen, dpReq_response (s := hdParse s) hrq, orElse_none,
    dpCksum_valid (s := hdParse s) (ckVerdict_valid_iff.mp hck), orElse_none]

/-- Source, destination, offset and checksum byte of a valid response are not in its decision (R166). -/
theorem decisionOf_dpRun_response {s : State} {b0 b1 typ b3 last : Byte} {p : List Byte}
    (htg : s.tg = [b0, b1, typ, b3] ++ p ++ [last]) (hp : p ≠ []) (hrq : b1.getLsbD 7 = false)
    (hck : ckVerdict s.cfg.ckTable s.tg = .valid) :
    decisionOf (dpRun s) = typeDecision s.cfg.catalog typ p.length p s.lenwarn s.f := by
  have hlen : s.tg.length = p.length + 5 := by simp [htg]
  have hpos := List.length_pos_iff.mpr hp
  have hpayload : payload s.tg = p := by simp [payload_eq, htg]
  have hdst : byteAt s.tg 1 = b1 := by simp [htg, byteAt]
  have htyp : byteAt s.tg 2 = typ := by simp [htg, byteAt]
  have hflag : requestFlag (byteAt s.tg 1) ≠ 1 := by
    rw [hdst, ne_eq, requestFlag_eq_one_iff, hrq]
    exact Bool.false_ne_true
  rw [dpRun_of_valid_response (by omega) hflag hck, decisionOf_dpLookupAndDecode]
  simp [ckCheckState, hdParse, headerRegs, htyp, hlen, hpayload]

/-- Settles O33: both responses have the decision of their common type and payload. -/
theorem addressesAndOffsetDecideNothing : Obligations.AddressesAndOffsetDecideNothing := by
  intro s t t' a0 a1 a3 b0 b1 b3 typ p ca cb hp ha hb hcka hckb hrun hrun'
  have hdec := (decisionOf_dpRun_response (s := { s with tg := [a0, a1, typ, a3] ++ p ++ [ca] }) rfl hp ha hcka).trans
    (decisionOf_dpRun_response (s := { s with tg := [b0, b1, typ, b3] ++ p ++ [cb] }) rfl hp hb hckb).symm
  rw [exec_dpRun] at hrun hrun'
  cases hrun
  cases hrun'
  obtain ⟨houtcome, hk, hlenwarn, hf⟩ := Decision.mk.inj hdec
  exact ⟨by simp only [State.setRes_res, houtcome], hk, hlenwarn, hf⟩

end Sys2Proof.Machine
end

section
/-! SUPPORT. The pipeline steps run alone: what each answers where it has its operands (R151 to R160). -/

namespace Sys2Proof.Machine

/-! ### The telegram and the header -/

/-- Settles O22: the registers are those of the first four bytes, and the two parts of byte 1 its flag and its address. -/
theorem headerParseFillsTheRegisters : Obligations.HeaderParseFillsTheRegisters := by
  refine ⟨fun _ => rfl, fun s b0 b1 b2 b3 rest htg hrest =>
    ⟨requestFlag b1, destination b1, requestFlag_eq_one_iff, setWidth_destination b1, ?_⟩⟩
  have hlen : ¬s.tg.length < 6 := by simp [htg]; omega
  have hparse : exec .hdParse s = .next (hdParse s) := if_neg hlen
  rw [hparse]
  simp [hdParse, State.setHdr, headerRegs, htg, byteAt]

theorem dpPoll_poll {s : State} (h : s.tg.length = 1) : dpPoll s = (s, some .poll) := if_pos h

theorem dpPoll_goesOn {s : State} (h : s.tg.length ≠ 1) : dpPoll s = (s, none) := if_neg h

/-- Settles O23: a poll leaves in silence, and any other telegram goes on. -/
theorem pollIsSilent : Obligations.PollIsSilent := by
  intro s
  constructor <;> intro h
  · simp only [exec, execDpPoll, dpPoll_poll h]; rfl
  · simp only [exec, execDpPoll, dpPoll_goesOn h]; rfl

theorem dpShort_short {s : State} (h : s.tg.length < 6) :
    dpShort s = (s.raise .tooShort [s.tg.length], some .tooShort) :=
  if_pos h

theorem dpShort_goesOn {s : State} (h : 6 ≤ s.tg.length) : dpShort s = (s, none) := if_neg h.not_gt

/-- Settles O24: a short telegram leaves by its diagnostic, any other goes on. -/
theorem shortTelegramIsRejected : Obligations.ShortTelegramIsRejected := by
  intro s
  constructor <;> intro h
  · simp only [exec, execDpShort, dpShort_short h]; rfl
  · simp only [exec, execDpShort, dpShort_goesOn h]; rfl

/-- Settles O25: a request leaves by its diagnostic, a response goes on. -/
theorem requestIsSkipped : Obligations.RequestIsSkipped := by
  intro s
  constructor <;> intro h
  · simp only [exec, execDpReq, dpReq_request h]; rfl
  · have hrq : s.hdr.rq ≠ 1 := by simp [h]
    simp only [exec, execDpReq, dpReq_response hrq]; rfl

/-- `DP.CKSUM` in its domain (R134, R155). -/
theorem exec_dpCksum {s : State} (h : 2 ≤ s.tg.length) : exec .dpCksum s = .next (dpCksum s).latch :=
  if_neg h.not_gt

theorem byteAt_snoc_last (bs : List Byte) (last : Byte) : byteAt (bs ++ [last]) ((bs ++ [last]).length - 1) = last := by
  simp [byteAt]

/-- Settles O26: the checksum of all bytes but the last against the last. -/
theorem badChecksumDropsTheTelegram : Obligations.BadChecksumDropsTheTelegram := by
  intro s bs last htg hbs
  have hpos := List.length_pos_iff.mpr hbs
  have hdrop : s.tg.dropLast = bs := by simp [htg]
  have hlast : byteAt s.tg (s.tg.length - 1) = last := by rw [htg, byteAt_snoc_last]
  rw [exec_dpCksum (by simp [htg]; omega)]
  constructor <;> intro h
  · rw [dpCksum_valid (by rw [hdrop, hlast, h])]
    simp [ckCheckState, State.setAcc, State.setRes, summedBytes_eq, hdrop, h]
  · rw [dpCksum_invalid (by rwa [hdrop, hlast])]
    simp [ckCheckState, State.setAcc, State.setRes, State.raise, State.emit, summedBytes_eq, hdrop, hlast]

/-! ### The catalog -/

/-- The search finds the first entry with the id (R157). -/
theorem lookup_eq_some_of_first {typ : Byte} {catalog : List Entry} {k : Nat} {e : Entry} (hk : catalog[k]? = some e)
    (hid : e.id = typ) (hfirst : ∀ (j : Nat) (e' : Entry), j < k → catalog[j]? = some e' → e'.id ≠ typ) :
    lookup typ catalog = some (k, e) := by
  obtain ⟨hlt, hget⟩ := List.getElem?_eq_some_iff.mp hk
  have hidx : (catalog.findIdx? fun e => e.id == typ) = some k :=
    List.findIdx?_eq_some_iff_getElem.mpr ⟨hlt, by simp [hget, hid], fun j hj => by
      simpa using hfirst j _ hj (List.getElem?_eq_getElem (hj.trans hlt))⟩
  rw [lookup_eq, hidx, Option.bind_some, hk, Option.map_some]

/-- Settles O27: a search that hits is the first match, and one that misses has no match. -/
theorem lookupTakesTheFirstMatch : Obligations.LookupTakesTheFirstMatch := by
  refine fun s => ⟨fun k e hk hid hfirst => ?_, fun hmiss => ?_⟩
  · simp only [exec, execCatLookup, catLookup, lookup_eq_some_of_first hk hid hfirst]; rfl
  · simp only [exec, execCatLookup, catLookup, lookup_none.mpr hmiss]; rfl

/-! ### The selected entry -/

theorem selected_eq_some {s : State} {k : Nat} {e : Entry} (hk : s.k = some k) (he : s.cfg.catalog[k]? = some e) :
    s.selected = some (k, e) := by
  simp [State.selected, hk, he]

theorem exec_dpLen {s : State} {k : Nat} {e : Entry} (h : s.selected = some (k, e)) :
    exec .dpLen s = .next (DpStep.latch (dpLen k e s, none)) := by
  simp [exec, execDpLen, h]

theorem exec_dpUnpack {s : State} {k : Nat} {e : Entry} (h : s.selected = some (k, e)) :
    exec .dpUnpack s = .next (dpUnpack k e s).latch := by
  simp [exec, execDpUnpack, h]

/-- Settles O28: `DP.LEN` is `dpLen_eq` with the outcome `none` in the latch, on both sides of `PLEN = exp_len`. -/
theorem lengthMismatchOnlyWarns : Obligations.LengthMismatchOnlyWarns := by
  intro s k e hk he
  rw [exec_dpLen (selected_eq_some hk he), dpLen_eq]
  constructor <;> intro h
  · simp [State.setRes, lengthWarning, lengthEvents, h]
  · simp [State.setRes, lengthWarning, lengthEvents, h]

/-- Settles O29: the layout fits the payload or it does not. -/
theorem layoutIsAppliedWholeOrNotAtAll : Obligations.LayoutIsAppliedWholeOrNotAtAll := by
  intro s k e p hk he hp
  rw [exec_dpUnpack (selected_eq_some hk he), hp, ← payload_eq]
  constructor
  · intro hfit
    rw [dpUnpack_fits k hfit]; rfl
  · intro hshort
    obtain ⟨c, hc⟩ := dpUnpack_short k hshort
    exact ⟨c, by rw [hc]; rfl⟩

theorem exec_dpHandoff {s : State} {k : Nat} (h : s.k = some k) :
    exec .dpHandoff s = .next ((dpHandoff k s).1.setRes (.pipeline (some .decoded))) := by
  simp [exec, execDpHandoff, dpHandoff, h]

/-- Settles O30: one event, of the registers as they stand. -/
theorem handoffEmitsTheRawFields : Obligations.HandoffEmitsTheRawFields := by
  intro s k hk
  rw [exec_dpHandoff hk]; rfl

end Sys2Proof.Machine
end

section
/-! SUPPORT. The unpacker: what a slot operation answers by its width alone, the values a slot reads, and the fields of a whole
layout (R180 to R192). -/

namespace Sys2Proof.Machine

/-! ### The fields of a layout -/

theorem valueStr_eq (p : List Byte) (c n : Nat) : valueStr p c n = .str ((p.drop c).take n) := by
  rw [valueStr, subList, Nat.add_sub_cancel_left]

theorem valueStr_append_left {p : List Byte} {c n : Nat} (extra : List Byte) (h : c + n ≤ p.length) :
    valueStr (p ++ extra) c n = valueStr p c n := by
  have hlen : n ≤ (p.drop c).length := by rw [List.length_drop]; omega
  rw [valueStr_eq, valueStr_eq, List.drop_append_of_le_length (by omega), List.take_append_of_le_length hlen]

theorem byteAt_append_left {p : List Byte} {c : Nat} (extra : List Byte) (h : c < p.length) :
    byteAt (p ++ extra) c = byteAt p c :=
  List.getD_append _ _ _ _ h

/-- A slot reads the bytes of its own width only. -/
theorem slotFields_append {sl : Slot} {p : List Byte} {c : Nat} (extra : List Byte) (h : c + sl.width ≤ p.length) :
    slotFields sl (p ++ extra) c = slotFields sl p c := by
  cases sl with
  | u8 => simp only [slotFields, valueU8, byteAt_append_left extra (Nat.lt_of_succ_le h)]
  | s8 => simp only [slotFields, valueS8, byteAt_append_left extra (Nat.lt_of_succ_le h)]
  | u16 =>
    have hlo : c + 1 < p.length := h
    simp only [slotFields, valueU16, byteAt_append_left extra hlo, byteAt_append_left extra (Nat.lt_of_succ_lt hlo)]
  | s16 =>
    have hlo : c + 1 < p.length := h
    simp only [slotFields, valueS16, byteAt_append_left extra hlo, byteAt_append_left extra (Nat.lt_of_succ_lt hlo)]
  | str n =>
    have hstr : valueStr (p ++ extra) c n = valueStr p c n := valueStr_append_left extra h
    rw [slotFields, slotFields, hstr]
  | skip n => rfl

/-- A layout reads the bytes of its own width only (R188). -/
theorem fieldsFrom_append {layout : Layout} {p : List Byte} {c : Nat} (extra : List Byte)
    (h : c + layoutWidth layout ≤ p.length) : fieldsFrom (p ++ extra) c layout = fieldsFrom p c layout := by
  induction layout generalizing c with
  | nil => rfl
  | cons sl rest ih =>
    rw [layoutWidth] at h
    rw [fieldsFrom, fieldsFrom, slotFields_append extra (by omega), ih (by omega)]

/-- A slot that fits gives one field of its own kind and length, a `SKIP` none (R192). -/
theorem map_fieldSlot_slotFields {sl : Slot} {p : List Byte} {c : Nat} (h : c + sl.width ≤ p.length) :
    (slotFields sl p c).map fieldSlot = [sl].filter givesField := by
  cases sl with
  | u8 | s8 | u16 | s16 | skip => rfl
  | str n =>
    have hlen : ((p.drop c).take n).length = n := by
      rw [Slot.width] at h
      rw [List.length_take, List.length_drop]; omega
    rw [slotFields, valueStr_eq, List.map_singleton, fieldSlot, hlen]; rfl

theorem map_fieldSlot_fieldsFrom {layout : Layout} {p : List Byte} {c : Nat}
    (h : c + layoutWidth layout ≤ p.length) : (fieldsFrom p c layout).map fieldSlot = layout.filter givesField := by
  induction layout generalizing c with
  | nil => rfl
  | cons sl rest ih =>
    rw [layoutWidth] at h
    rw [fieldsFrom, List.map_append, map_fieldSlot_slotFields (by omega), ih (by omega), ← List.filter_append,
      List.singleton_append]

/-! ### `UP.UNPACK` -/

theorem exec_upUnpack_fits {layout : Layout} {p : List Byte} (s : State) (h : layoutWidth layout ≤ p.length) :
    exec (.upUnpack layout p) s = .next { s with
      cur := layoutWidth layout, f := fieldsFrom p 0 layout, res := .fields (fieldsFrom p 0 layout) } := by
  simp only [exec, execUpUnpack, unpack_fits s h]; rfl

theorem exec_upUnpack_short {layout : Layout} {p : List Byte} (s : State) (h : p.length < layoutWidth layout) :
    ∃ c, exec (.upUnpack layout p) s = .next { s with cur := c, f := [], res := .layoutMismatch } := by
  obtain ⟨c, hc⟩ := unpack_short s h
  refine ⟨c, ?_⟩
  simp only [exec, execUpUnpack, hc]; rfl

/-- Settles O40: the layout fits the payload or it does not. -/
theorem unpackSucceedsExactlyWhenTheLayoutFits : Obligations.UnpackSucceedsExactlyWhenTheLayoutFits :=
  fun s _ _ => ⟨exec_upUnpack_fits s, exec_upUnpack_short s⟩

/-- Settles O41: the layout fits the longer payload too, and reads the same bytes of it. -/
theorem surplusPayloadIsIgnored : Obligations.SurplusPayloadIsIgnored := by
  intro s layout p extra hfit
  have hfields : fieldsFrom (p ++ extra) 0 layout = fieldsFrom p 0 layout := fieldsFrom_append extra (by omega)
  have hlonger : layoutWidth layout ≤ (p ++ extra).length := by rw [List.length_append]; omega
  rw [exec_upUnpack_fits s hlonger, exec_upUnpack_fits s hfit, hfields]

/-- Settles O42: slot by slot, the fields of a layout that fits are of its kinds and lengths. -/
theorem fieldKindsAreFixedByTheLayout : Obligations.FieldKindsAreFixedByTheLayout :=
  fun s _ _ hfit => ⟨_, exec_upUnpack_fits s hfit, map_fieldSlot_fieldsFrom (by omega)⟩

/-! ### A slot operation run alone -/

/-- What a slot operation leaves in the result latch when its bytes suffice: the field it appends, and for a `SKIP`, which
returns nothing, what stood there (R181 to R186). -/
def slotReturned (sl : Slot) (s : State) : Result :=
  ((slotFields sl (payload s.tg) s.cur).head?.map Result.field).getD s.res

theorem exec_slotInstr (sl : Slot) (s : State) : exec (slotInstr sl) s = runSlot sl (slotReturned sl s) s := by
  cases sl <;> rfl

/-- A slot operation whose bytes exist appends what the slot reads and moves the cursor over it (R180). -/
theorem exec_slotInstr_fits {sl : Slot} {s : State} (h : s.cur + sl.width ≤ (payload s.tg).length) :
    exec (slotInstr sl) s = .next { s with
      f := s.f ++ slotFields sl (payload s.tg) s.cur, cur := s.cur + sl.width, res := slotReturned sl s } := by
  rw [exec_slotInstr, runSlot, applySlot_fits h]; rfl

/-- A slot operation whose bytes do not all exist empties the field list (R187). -/
theorem exec_slotInstr_short {sl : Slot} {s : State} (h : (payload s.tg).length < s.cur + sl.width) :
    exec (slotInstr sl) s = .next { s with f := [], res := .layoutMismatch } := by
  rw [exec_slotInstr, runSlot, applySlot_short h]; rfl

/-- Slot operations in order, where all their bytes exist, do what the loop of R180 does; only the latch is their own. -/
theorem runSlots_fits {layout : Layout} {s : State} (h : s.cur + layoutWidth layout ≤ (payload s.tg).length) :
    ∃ r, runSlots layout s = .next { s with
      f := s.f ++ fieldsFrom (payload s.tg) s.cur layout, cur := s.cur + layoutWidth layout, res := r } := by
  induction layout generalizing s with
  | nil => exact ⟨s.res, by simp [runSlots, fieldsFrom, layoutWidth]⟩
  | cons sl rest ih =>
    rw [layoutWidth, ← Nat.add_assoc] at h
    rw [runSlots, exec_slotInstr_fits (Nat.le_of_add_right_le h)]
    obtain ⟨r, hr⟩ := ih (s := { s with
      f := s.f ++ slotFields sl (payload s.tg) s.cur, cur := s.cur + sl.width, res := slotReturned sl s }) h
    exact ⟨r, by simp only [hr, fieldsFrom, layoutWidth, List.append_assoc, Nat.add_assoc]⟩

/-- Settles O43: both runs end with the fields of the layout and its width in `CUR`. -/
theorem slotsInOrderAreTheUnpackLoop : Obligations.SlotsInOrderAreTheUnpackLoop := by
  intro s layout hfit
  rw [← payload_eq] at hfit ⊢
  obtain ⟨r, hr⟩ := runSlots_fits (layout := layout) (s := { s with cur := 0, f := [] }) (by simpa using hfit)
  exact ⟨_, _, hr, exec_upUnpack_fits s hfit, by simp⟩

/-- Settles O39: every slot kind is a slot operation that does not fit. -/
theorem slotWithoutItsBytesIsAMismatch : Obligations.SlotWithoutItsBytesIsAMismatch := by
  intro s sl hshort
  exact exec_slotInstr_short (by rwa [payload_eq])

/-- Settles O38: the string takes the bytes of its width, the skip none. -/
theorem stringKeepsItsBytesAndSkipNone : Obligations.StringKeepsItsBytesAndSkipNone := by
  intro s n p hp hfit
  rw [← payload_eq] at hp
  subst hp
  have hskip := exec_slotInstr_fits (sl := .skip n) hfit
  rw [slotFields, List.append_nil] at hskip
  rw [← valueStr_eq]
  exact ⟨exec_slotInstr_fits (sl := .str n) hfit, hskip⟩

/-! ### The numeric slots -/

theorem byteAt_of_getElem? {l : List Byte} {i : Nat} {b : Byte} (h : l[i]? = some b) :
    i < l.length ∧ byteAt l i = b := by
  obtain ⟨hi, rfl⟩ := List.getElem?_eq_some_iff.mp h
  exact ⟨hi, List.getD_eq_getElem _ _ hi⟩

/-- The lower offset is the more significant byte (R52). -/
theorem be16_toNat (hi lo : Byte) : (be16 hi lo).toNat = 256 * hi.toNat + lo.toNat := by
  rw [be16_eq_append, BitVec.toNat_append, ← Nat.shiftLeft_add_eq_or_of_lt lo.isLt, Nat.shiftLeft_eq]
  omega

theorem fieldValue_s8 (v : Byte) :
    fieldValue (.s8 v) = some (if v.toNat < 128 then (v.toNat : Int) else (v.toNat : Int) - 256) := by
  rw [fieldValue, BitVec.toInt_eq_toNat_cond]
  congr 2
  exact propext (by omega)

theorem fieldValue_s16 (w : Half) :
    fieldValue (.s16 w) = some (if w.toNat < 32768 then (w.toNat : Int) else (w.toNat : Int) - 65536) := by
  rw [fieldValue, BitVec.toInt_eq_toNat_cond]
  congr 2
  exact propext (by omega)

/-- Settles O36: one byte, unsigned or in two's complement. -/
theorem eightBitSlotsReadOneByte : Obligations.EightBitSlotsReadOneByte := by
  intro s v hv
  rw [← payload_eq] at hv
  obtain ⟨hfit, rfl⟩ := byteAt_of_getElem? hv
  exact ⟨exec_slotInstr_fits (sl := .u8) hfit, exec_slotInstr_fits (sl := .s8) hfit, rfl, fieldValue_s8 _⟩

/-- Settles O37: one pattern of two bytes, unsigned or in two's complement. -/
theorem sixteenBitSlotsAreBigEndian : Obligations.SixteenBitSlotsAreBigEndian := by
  intro s hi lo hhi hlo
  rw [← payload_eq] at hhi hlo
  obtain ⟨-, rfl⟩ := byteAt_of_getElem? hhi
  obtain ⟨hfit, rfl⟩ := byteAt_of_getElem? hlo
  exact ⟨_, be16_toNat _ _, exec_slotInstr_fits (sl := .u16) hfit, exec_slotInstr_fits (sl := .s16) hfit, rfl,
    fieldValue_s16 _⟩

end Sys2Proof.Machine
end

section
/-! SUPPORT. The post-extraction operators run in their domains: what each answers, and the values it returns (R210 to R215). -/

namespace Sys2Proof.Machine

/-! ### `PX.BIT` -/

theorem maskInDomain_of_lt {v : RawVal} {mask w : Nat} (hw : fieldBits v = some w) (hmask : mask < 2 ^ w) :
    maskInDomain v mask = true := by
  simp [maskInDomain, hw, hmask]

theorem bitTest_eq_some {v : RawVal} {pat : Nat} (hpat : fieldPattern v = some pat) (mask : Nat) :
    bitTest v mask = some (pat &&& mask != 0) := by
  rw [bitTest, hpat, Option.map_some]

/-- `PX.BIT` in its domain (R210). -/
theorem exec_pxBit {v : RawVal} {mask : Nat} {b : Bool} (hmask : maskInDomain v mask = true) (hb : bitTest v mask = some b)
    (s : State) : exec (.pxBit v mask) s = .next { s with res := .bool b } := by
  simp only [exec, execPxBit, hmask, hb]; rfl

/-- The conjunction with a mask of `w` bits is not zero exactly when the two share a set bit, which is one of those `w`. -/
theorem and_bne_zero_iff_exists_testBit {pat mask w : Nat} (hmask : mask < 2 ^ w) :
    (pat &&& mask != 0) = true ↔ ∃ i, i < w ∧ pat.testBit i = true ∧ mask.testBit i = true := by
  rw [bne_iff_ne]
  constructor
  · intro hne
    obtain ⟨i, hi⟩ := Nat.exists_testBit_of_ne_zero hne
    obtain ⟨hpat, hbit⟩ : pat.testBit i = true ∧ mask.testBit i = true := by simpa using hi
    refine ⟨i, ?_, hpat, hbit⟩
    exact (Nat.pow_lt_pow_iff_right one_lt_two).mp ((Nat.ge_two_pow_of_testBit hbit).trans_lt hmask)
  · rintro ⟨i, -, hpat, hbit⟩ hzero
    have hi : (pat &&& mask).testBit i = true := by rw [Nat.testBit_and, hpat, hbit]; rfl
    simp [hzero] at hi

/-- Settles O44: the test is a conjunction, and the mask has no bit outside the field. -/
theorem bitTestIsAnyBitOfTheMask : Obligations.BitTestIsAnyBitOfTheMask :=
  fun s _ mask _ _ hpat hw hmask =>
    ⟨_, exec_pxBit (maskInDomain_of_lt hw hmask) (bitTest_eq_some hpat mask) s, and_bne_zero_iff_exists_testBit hmask⟩

/-! ### `PX.WIDE32` -/

theorem joinHalves_eq_append (high low : Half) : joinHalves high low = high ++ low := by
  rw [BitVec.append_def, BitVec.shiftLeftZeroExtend_eq]
  rfl

/-- The first half is the more significant one (R53). -/
theorem joinHalves_toNat (high low : Half) : (joinHalves high low).toNat = high.toNat * 65536 + low.toNat := by
  rw [joinHalves_eq_append, BitVec.toNat_append, ← Nat.shiftLeft_add_eq_or_of_lt low.isLt, Nat.shiftLeft_eq]

/-- Settles O45: the two halves stand side by side in 32 bits. -/
theorem wideJoinsTheHighAndTheLowHalf : Obligations.WideJoinsTheHighAndTheLowHalf :=
  fun _ high low => ⟨joinHalves high low, joinHalves_toNat high low, rfl⟩

/-! ### `PX.BITMAP` -/

/-- What the list holds when `j` bytes stand before `bs`: the indices of the set bits of `bs`. -/
theorem mem_bitmapFrom {msbFirst : Bool} {base n : Nat} {bs : List Byte} {j : Nat} :
    n ∈ bitmapFrom msbFirst base j bs ↔ ∃ (i q : Nat) (b : Byte),
      bs[i]? = some b ∧ q < 8 ∧ n = base + 8 * (j + i) + q ∧ bitmapBit msbFirst b q = true := by
  induction bs generalizing j with
  | nil => simp [bitmapFrom]
  | cons b bs ih =>
    rw [bitmapFrom, List.mem_append, ih]
    constructor
    · rintro (hfirst | ⟨i, q, c, hc, hq, rfl, hbit⟩)
      · obtain ⟨q, hq, rfl⟩ := List.mem_map.mp hfirst
        obtain ⟨hq8, hbit⟩ := List.mem_filter.mp hq
        exact ⟨0, q, b, rfl, List.mem_range.mp hq8, rfl, hbit⟩
      · exact ⟨i + 1, q, c, hc, hq, by omega, hbit⟩
    · rintro ⟨_ | i, q, c, hc, hq, rfl, hbit⟩
      · obtain rfl : b = c := by simpa using hc
        exact .inl (List.mem_map.mpr ⟨q, List.mem_filter.mpr ⟨List.mem_range.mpr hq, hbit⟩, rfl⟩)
      · exact .inr ⟨i, q, c, hc, hq, by omega, hbit⟩

/-- Within a byte the indices ascend with the bit, and every later byte's lie beyond them. -/
theorem bitmapFrom_pairwise_lt (msbFirst : Bool) (base j : Nat) (bs : List Byte) :
    (bitmapFrom msbFirst base j bs).Pairwise (· < ·) := by
  induction bs generalizing j with
  | nil => exact List.Pairwise.nil
  | cons b bs ih =>
    refine List.pairwise_append.mpr ⟨?within, ih (j + 1), ?across⟩
    case within => exact (List.pairwise_lt_range.filter _).map _ fun _ _ h => Nat.add_lt_add_left h _
    case across =>
      intro m hm n hn
      obtain ⟨q, hq, rfl⟩ := List.mem_map.mp hm
      have hq8 : q < 8 := List.mem_range.mp (List.mem_filter.mp hq).1
      obtain ⟨i, r, -, -, -, rfl, -⟩ := mem_bitmapFrom.mp hn
      omega

theorem mem_bitmap {msbFirst : Bool} {base n : Nat} {bs : List Byte} :
    n ∈ bitmap msbFirst base bs ↔ ∃ (j q : Nat) (b : Byte),
      bs[j]? = some b ∧ q < 8 ∧ n = base + 8 * j + q ∧ bitmapBit msbFirst b q = true := by
  simp only [bitmap, mem_bitmapFrom, Nat.zero_add]

/-- Settles O46: the list ascends and holds the index of each set bit. -/
theorem bitmapListsTheSetBits : Obligations.BitmapListsTheSetBits :=
  fun s bs => ⟨bitmap s.cfg.bitmapMsbFirst s.cfg.bitmapBase bs, rfl, bitmapFrom_pairwise_lt _ _ _ _, fun _ => mem_bitmap⟩

/-! ### `PX.SENT` -/

/-- `PX.SENT` in its domain (R213), as the composition runs it. -/
theorem execPxSent_inDomain {v : RawVal} {sentinel : Int} (h : sentinelInDomain v sentinel = true) (s : State) :
    execPxSent v sentinel s = .next { s with res := .sent (sentTest v sentinel) } :=
  if_pos h

theorem sentTest_sentinel {v : RawVal} {sentinel : Int} (h : fieldValue v = some sentinel) :
    sentTest v sentinel = .absent :=
  if_pos h

theorem sentTest_ne {v : RawVal} {x sentinel : Int} (hx : fieldValue v = some x) (hne : x ≠ sentinel) :
    sentTest v sentinel = .present v :=
  if_neg (by simpa [hx] using hne)

theorem execPxSent_absent {v : RawVal} {sentinel : Int} (hdom : sentinelInDomain v sentinel = true)
    (hx : fieldValue v = some sentinel) (s : State) :
    execPxSent v sentinel s = .next { s with res := .sent .absent } := by
  rw [execPxSent_inDomain hdom, sentTest_sentinel hx]

theorem execPxSent_present {v : RawVal} {x sentinel : Int} (hdom : sentinelInDomain v sentinel = true)
    (hx : fieldValue v = some x) (hne : x ≠ sentinel) (s : State) :
    execPxSent v sentinel s = .next { s with res := .sent (.present v) } := by
  rw [execPxSent_inDomain hdom, sentTest_ne hx hne]

/-- Settles O47: the value is the sentinel or it is not. -/
theorem sentinelMapsToAbsent : Obligations.SentinelMapsToAbsent :=
  fun s _ _ _ hx hdom => ⟨fun heq => execPxSent_absent hdom (heq ▸ hx) s, fun hne => execPxSent_present hdom hx hne s⟩

/-! ### `PX.SCALE` -/

theorem scaleExact_mul_den {v num den : Int} (hden : 0 < den) : scaleExact v num den * den = v * num := by
  lift den to Nat using hden.le
  have hne : (den : Rat) ≠ 0 := by exact_mod_cast hden.ne'
  rw [scaleExact, Int.toNat_natCast, Rat.mkRat_eq_div, Int.cast_natCast, div_mul_cancel₀ _ hne, Int.cast_mul]

/-- `PX.SCALE` in its domain (R214). -/
theorem exec_pxScale {num den : Int} (hnum : 0 < num) (hden : 0 < den) (v : Int) (s : State) :
    exec (.pxScale v num den) s = .next { s with res := .ratio (scaleExact v num den) } :=
  if_pos (decide_eq_true ⟨hnum, hden⟩)

/-- Settles O48: the quotient times its denominator is the product. -/
theorem scaleIsExact : Obligations.ScaleIsExact :=
  fun s v num den hnum hden => ⟨scaleExact v num den, scaleExact_mul_den hden, exec_pxScale hnum hden v s⟩

/-! ### The composition -/

/-- An absent value is not scaled, whatever the scale (R215). -/
theorem sentThenScale_absent {v : RawVal} {sentinel : Int} (hdom : sentinelInDomain v sentinel = true)
    (hx : fieldValue v = some sentinel) (num den : Int) (s : State) :
    sentThenScale v sentinel num den s = .next { s with res := .sent .absent } := by
  rw [sentThenScale_next (execPxSent_absent hdom hx s), scalePresent_none rfl]

/-- For a present value the composition is `PX.SCALE` of it, from the state `PX.SENT` leaves (R215). -/
theorem sentThenScale_present {v : RawVal} {x sentinel : Int} (hdom : sentinelInDomain v sentinel = true)
    (hx : fieldValue v = some x) (hne : x ≠ sentinel) (num den : Int) (s : State) :
    sentThenScale v sentinel num den s = exec (.pxScale x num den) { s with res := .sent (.present v) } := by
  rw [sentThenScale_next (execPxSent_present hdom hx hne s)]
  exact scalePresent_some hx

/-- Settles O49: by what `PX.SENT` answers, absent, present or refused, and for a present value by the scale. -/
theorem sentinelComesBeforeScale : Obligations.SentinelComesBeforeScale := by
  refine ⟨fun s v x sentinel num den hx hdom => ⟨?absent, ?scaled, ?scaleRefused⟩, ?sentRefused⟩
  case absent =>
    rintro rfl
    exact ⟨execPxSent_absent hdom hx s, sentThenScale_absent hdom hx num den s⟩
  case scaled =>
    intro hne hnum hden
    have hscale := exec_pxScale hnum hden x { s with res := .sent (.present v) }
    exact ⟨scaleExact x num den, scaleExact_mul_den hden, execPxSent_present hdom hx hne s, hscale,
      (sentThenScale_present hdom hx hne num den s).trans hscale⟩
  case scaleRefused =>
    intro hne hscale
    have hrefused := pxScale_refused hscale x { s with res := .sent (.present v) }
    exact ⟨hrefused, (sentThenScale_present hdom hx hne num den s).trans hrefused⟩
  case sentRefused =>
    intro s v sentinel num den hdom
    exact ⟨pxSent_refused hdom s, sentThenScale_refused (pxSent_refused hdom s)⟩

end Sys2Proof.Machine
end

section
/-! SUPPORT. What a `LayoutMismatch` of the pipeline says of the telegram and its entry (R158, R159, R236). -/

namespace Sys2Proof.Machine

/-- An entry's expected length is the width of its layout (R164). -/
theorem expLen_eq_layoutWidth (e : Entry) : e.expLen = layoutWidth e.layout :=
  eq_of_beq (Bool.and_eq_true_iff.mp e.wf).1

/-- A layout that does not fit is wider than `PLEN`, and by R164 so is the expected length: the warning of step 7 is there. -/
theorem decodeResult_layoutMismatch {k : Nat} {e : Entry} {t : Telegram} (h : (decodeResult k e t).2 = .layoutMismatch) :
    t.length - 5 < e.expLen ∧ (decodeResult k e t).1 =
      [.diag .lengthMismatch [k, t.length - 5, e.expLen], .diag .layoutMismatch [k, t.length - 5, e.expLen]] := by
  by_cases hfit : e.expLen ≤ t.length - 5
  · simp [decodeResult, ← expLen_eq_layoutWidth, payload_length, hfit] at h
  · have hlt : t.length - 5 < e.expLen := not_le.mp hfit
    refine ⟨hlt, ?_⟩
    simp [decodeResult, lengthEvents, ← expLen_eq_layoutWidth, payload_length, hfit, hlt.ne]

theorem lookupResult_layoutMismatch {catalog : List Entry} {t : Telegram}
    (h : (lookupResult catalog t).2 = .layoutMismatch) :
    ∃ k e, catalog[k]? = some e ∧ e.id = (telegramHeader t).typ ∧ lookupResult catalog t = decodeResult k e t := by
  unfold lookupResult at h ⊢
  cases hl : lookup (telegramHeader t).typ catalog with
  | none => simp [hl] at h
  | some entry =>
    obtain ⟨hk, hid⟩ := lookup_some hl
    exact ⟨entry.1, entry.2, hk, hid, rfl⟩

/-- No step before the search ends in `LayoutMismatch` (R151 to R155). -/
theorem pipelineResult_layoutMismatch {tbl : CkTable} {catalog : List Entry} {t : Telegram}
    (h : (pipelineResult tbl catalog t).2 = .layoutMismatch) :
    6 ≤ t.length ∧ pipelineResult tbl catalog t = lookupResult catalog t := by
  by_cases hpoll : t.length = 1
  · simp [pipelineResult, hpoll] at h
  by_cases hshort : t.length < 6
  · simp [pipelineResult, hpoll, hshort] at h
  by_cases hrq : (telegramHeader t).rq = 1
  · simp [pipelineResult, hpoll, hshort, hrq] at h
  by_cases hck : ckCompute tbl t.dropLast = byteAt t (t.length - 1)
  · exact ⟨not_lt.mp hshort, pipelineResult_eq_lookupResult catalog (not_lt.mp hshort) hrq hck⟩
  · simp only [pipelineResult, if_neg hpoll, if_neg hshort, if_neg hrq, if_pos hck] at h
    cases h

/-- The type byte is byte 2 (R74, R75). -/
theorem getElem?_two_eq_typ {t : Telegram} (h : 2 < t.length) : t[2]? = some (telegramHeader t).typ := by
  rw [List.getElem?_eq_getElem h]
  exact congrArg some (List.getD_eq_getElem t 0 h).symm

/-- Settles O34: the run got to the search, which hit, and the entry's layout did not fit the payload. -/
theorem layoutMismatchFollowsLengthMismatch : Obligations.LayoutMismatchFollowsLengthMismatch := by
  intro s t hrun hres
  rw [exec_dpRun] at hrun
  cases hrun
  obtain ⟨htrace, houtcome⟩ := dpRun_yields s
  have hmismatch : (pipelineResult s.cfg.ckTable s.cfg.catalog s.tg).2 = .layoutMismatch := by
    simpa [houtcome] using hres
  obtain ⟨hlen, hlookup⟩ := pipelineResult_layoutMismatch hmismatch
  rw [hlookup] at hmismatch htrace
  obtain ⟨k, e, hk, hid, hdecode⟩ := lookupResult_layoutMismatch hmismatch
  rw [hdecode] at hmismatch htrace
  obtain ⟨hlt, hevents⟩ := decodeResult_layoutMismatch hmismatch
  have htyp : s.tg[2]? = some e.id := by rw [hid, getElem?_two_eq_typ (by omega)]
  exact ⟨k, _, e, rfl, hk, htyp, hlt, by rw [State.setRes_trace, htrace, hevents]⟩

end Sys2Proof.Machine
end

section
/-! SUPPORT. What `RESET` answers, and the invariant of the state after reset (R260, R34). -/

namespace Sys2Proof.Machine

/-- Of the state it runs in, `RESET` keeps the parameters, the stream and the port, and nothing else (R260, R261). -/
theorem exec_reset (s : State) :
    exec .reset s = .next { State.reset with cfg := s.cfg, input := s.input, call := s.call } := rfl

/-- Settles O51: the answer is `exec_reset`, and the clauses of the state after reset are among those of R34. -/
theorem resetClearsTheFramerAndTheTrace : Obligations.ResetClearsTheFramerAndTheTrace := by
  intro s
  obtain ⟨hfs, hbuf, htrace, -⟩ := resetStateIsTheSpecs
  exact ⟨exec_reset s, hfs, hbuf, htrace⟩

/-- Settles O54: the empty buffer respects every capacity; no index is selected (notes/assumptions/7.md) and the trace has
no event, so nothing is left to check of either. -/
theorem invariantHoldsAtReset : Obligations.InvariantHoldsAtReset := by
  have hindex : ∀ k, State.reset.k = some k → indexWf State.reset.cfg.catalog k = true := nofun
  have htrace : ∀ e ∈ State.reset.trace, eventWf State.reset.cfg.catalog e = true := nofun
  exact ⟨reset_memory_wf, hindex, htrace⟩

end Sys2Proof.Machine
end
